-- ==== Sys2Proof/Word.lean ====
section
/-! DEFINITION. The word types: every field of the block is a whole number of bytes (spec/30_encoding.md R70),
bytes are unsigned (spec/00_scope.md R8), and the two-byte fields are 16 bits wide (R9). -/

namespace Sys2Proof

/-- A byte, an unsigned integer 0 to 255 (R8). -/
abbrev Byte := BitVec 8

/-- A 16-bit field (R9, R21, R22, R29). -/
abbrev U16 := BitVec 16

end Sys2Proof
end

