-- ==== Sys2Proof/Config.lean ====
section
/-! DEFINITION. What the source fixes for every implementation (spec/00_scope.md R6) and the one parameter the
model leaves uninterpreted (R7: ERR_CLASS), with the channel's free answers to `close`. RXBUF_CAP, the other open
parameter, is a field of State that no step writes (log 6). -/

namespace Sys2Proof

/-- The nine classes of an error code (spec/42_payload.md R156). -/
inductive ErrClass where
  | inventoryFailure
  | commandError
  | readFailure
  | writeFailure
  | lockFailure
  | killFailure
  | fhssFailure
  | accessFailure
  | unknown
  deriving DecidableEq, Repr, Inhabited

namespace Config

/-- HDR, the header byte (R6). -/
abbrev HDR : Byte := 0xAA
/-- TRL, the trailer byte (R6). -/
abbrev TRL : Byte := 0xDD
/-- TYPE_COMMAND (R6). -/
abbrev TYPE_COMMAND : Byte := 0x00
/-- TYPE_RESPONSE (R6). -/
abbrev TYPE_RESPONSE : Byte := 0x01
/-- TYPE_NOTIFICATION (R6). -/
abbrev TYPE_NOTIFICATION : Byte := 0x02
/-- MAX_PARAM_LEN, the largest parameter length (R6). -/
abbrev MAX_PARAM_LEN : Nat := 65535
/-- OVERHEAD, the bytes of a frame other than its parameters (R6). -/
abbrev OVERHEAD : Nat := 7
/-- INV_MIN_LEN, the least length of an inventory payload (R6). -/
abbrev INV_MIN_LEN : Nat := 17
/-- ID_LEN, the width of an identifier in bytes (R6). -/
abbrev ID_LEN : Nat := 12
/-- The opcode GET_MODULE_INFO (spec/30_encoding.md R78). -/
abbrev OP_GET_MODULE_INFO : Byte := 0x03
/-- OP_SINGLE_POLL (R6). -/
abbrev OP_SINGLE_POLL : Byte := 0x22
/-- OP_MULTI_POLL (R6). -/
abbrev OP_MULTI_POLL : Byte := 0x27
/-- The opcode STOP_MULTI_POLL (spec/30_encoding.md R78). -/
abbrev OP_STOP_MULTI_POLL : Byte := 0x28
/-- The opcode SET_RX_DEMOD (spec/30_encoding.md R78). -/
abbrev OP_SET_RX_DEMOD : Byte := 0xF0
/-- OP_EXEC_FAILURE (R6). -/
abbrev OP_EXEC_FAILURE : Byte := 0xFF

/-- ERR_CLASS (spec/00_scope.md R7, spec/42_payload.md R156): a total function of the code byte of which nothing
else is assumed, so it has no body (log 7). -/
opaque errClass : Byte → ErrClass

/-- Whether the n-th `close` of the channel whose answer was not presented answers `error`: a draw (spec/43_session.md
R166), so a free value with no body (log 27). -/
opaque closeFails : Nat → Bool

end Config

end Sys2Proof
end

