-- ==== Sys2Proof/Syntax.lean ====
section
/-! DEFINITION. What the block is told to do: one constructor of Instr per row of spec/opcode_table.json
(spec/30_encoding.md R87, R90), the requests, frames and commands they are decoded from, and the reasons a decoder
gives for taking none. -/

namespace Sys2Proof

/-- The three defined frame types (spec/30_encoding.md R77). -/
inductive FrameType where
  | command
  | response
  | notification
  deriving DecidableEq, Repr

/-- Why the decode loop ended (spec/10_state.md R25). -/
inductive StopReason where
  | endOfBuffer
  | badHeader
  | badType
  | truncatedFrame
  deriving DecidableEq, Repr

/-- The fields of one frame as they stand on the wire (spec/30_encoding.md R70). The header is constant and the
length field is the number of parameters, so neither is a field here. -/
structure WireFrame where
  type       : FrameType
  command    : Byte
  parameters : List Byte
  checksum   : Byte
  trailer    : Byte
  deriving DecidableEq, Repr

/-- The instructions: the three frame rows, the six opcode rows and the nine host operations of the opcode table. -/
inductive Instr where
  /-- FRAME.COMMAND: a frame of type 0x00 at CURSOR. -/
  | frameCommand (cmd : Byte) (params : List Byte) (checksum trailer : Byte)
  /-- FRAME.RESPONSE: a frame of type 0x01 at CURSOR. -/
  | frameResponse (cmd : Byte) (params : List Byte) (checksum trailer : Byte)
  /-- FRAME.NOTIFICATION: a frame of type 0x02 at CURSOR. -/
  | frameNotification (cmd : Byte) (params : List Byte) (checksum trailer : Byte)
  /-- GET_MODULE_INFO: a received frame with command 0x03. -/
  | getModuleInfo (params : List Byte)
  /-- SINGLE_POLL: a received frame with command 0x22. -/
  | singlePoll (params : List Byte)
  /-- MULTI_POLL: a received frame with command 0x27. -/
  | multiPoll (params : List Byte)
  /-- STOP_MULTI_POLL: a received frame with command 0x28. -/
  | stopMultiPoll (params : List Byte)
  /-- SET_RX_DEMOD: a received frame with command 0xF0. -/
  | setRxDemod (params : List Byte)
  /-- EXEC_FAILURE: a received frame with command 0xFF. -/
  | execFailure (params : List Byte)
  /-- OPEN(channel, read_timeout). -/
  | opOpen (channel readTimeout : Nat)
  /-- CLOSE(). -/
  | opClose
  /-- ENCODE(cmd, params). -/
  | opEncode (cmd : Byte) (params : List Byte)
  /-- DECODE(buf). -/
  | opDecode (buf : List Byte)
  /-- SEND(cmd, params). -/
  | opSend (cmd : Byte) (params : List Byte)
  /-- RECEIVE(). -/
  | opReceive
  /-- INVPARSE(p). -/
  | opInvParse (params : List Byte)
  /-- ERRPARSE(p). -/
  | opErrParse (params : List Byte)
  /-- READTAGS(rounds). -/
  | opReadTags (rounds : Nat)
  deriving DecidableEq, Repr

/-- What stands at the host command port: the 4-bit OPSEL of spec/30_encoding.md R90 and the operands. The source gives
operands no binary form (spec/91_not_in_source.md N29), so they are values; an operation reads those R90 lists for it
(log 2). -/
structure Request where
  opsel   : BitVec 4
  channel : Nat := 0
  timeout : Nat := 0
  cmd     : Byte := 0
  bytes   : List Byte := []
  rounds  : Nat := 0
  deriving DecidableEq, Repr

/-- What an instruction is decoded from, one constructor per decode step of spec/30_encoding.md R87: a request at the
command port, the bytes of RXBUF from CURSOR on, or the command byte and parameters of a received frame. -/
inductive Code where
  | request (r : Request)
  | frame (bytes : List Byte)
  | command (opcode : Byte) (params : List Byte)
  deriving DecidableEq, Repr

/-- Why a decoder takes no instruction. -/
inductive Reject where
  /-- An OPSEL of 0x9 to 0xF (R90). -/
  | badOpsel (opsel : BitVec 4)
  /-- The decode loop stops here (spec/41_decode.md R120 to R123). -/
  | stop (reason : StopReason)
  /-- A command byte with no row: a legal frame, passed through (R85). -/
  | unlistedOpcode (opcode : Byte)
  deriving DecidableEq, Repr

end Sys2Proof
end

