-- ==== Sys2Proof/WellFormed.lean ====
section
/-! DEFINITION. Which instructions can stand in the spaces they are fetched from: a frame's parameters fit its 16-bit
length field (spec/30_encoding.md R70, R71; spec/10_state.md R27). A host operation takes operands of any length
(spec/40_encode.md R103: "any length and any content"). -/

namespace Sys2Proof

/-- A parameter sequence that a frame can carry: 0 to 65535 bytes (R27). -/
def paramsFit (params : List Byte) : Bool := decide (params.length ≤ Config.MAX_PARAM_LEN)

/-- The well-formed instructions. -/
def Instr.wf : Instr → Bool
  | .frameCommand _ p _ _ => paramsFit p
  | .frameResponse _ p _ _ => paramsFit p
  | .frameNotification _ p _ _ => paramsFit p
  | .getModuleInfo p => paramsFit p
  | .singlePoll p => paramsFit p
  | .multiPoll p => paramsFit p
  | .stopMultiPoll p => paramsFit p
  | .setRxDemod p => paramsFit p
  | .execFailure p => paramsFit p
  | .opOpen _ _ => true
  | .opClose => true
  | .opEncode _ _ => true
  | .opDecode _ => true
  | .opSend _ _ => true
  | .opReceive => true
  | .opInvParse _ => true
  | .opErrParse _ => true
  | .opReadTags _ => true

end Sys2Proof
end

