-- ==== Sys2Proof/Decode.lean ====
section
/-! DEFINITION. The three decode steps (spec/30_encoding.md R87, R90; spec/41_decode.md R120 to R125), total on any
input and rejecting by name, the encoder written from the same tables, and the opcode table's patterns. -/

namespace Sys2Proof

open Config

/-! Byte order (spec/00_scope.md R9, spec/20_memory.md R52). -/

/-- hi8(v) = v div 256. -/
def hi8 (v : Nat) : Byte := BitVec.ofNat 8 (v / 256)

/-- lo8(v) = v mod 256. -/
def lo8 (v : Nat) : Byte := BitVec.ofNat 8 (v % 256)

/-- u16be(h, l) = 256 * h + l. -/
def u16be (h l : Byte) : U16 := BitVec.ofNat 16 (256 * h.toNat + l.toNat)

/-! Frame types (spec/30_encoding.md R77). -/

/-- The wire value of a frame type. -/
def FrameType.code : FrameType → Byte
  | .command => TYPE_COMMAND
  | .response => TYPE_RESPONSE
  | .notification => TYPE_NOTIFICATION

/-- The frame type of a wire value; 0x03 to 0xFF are undefined. -/
def FrameType.ofByte (b : Byte) : Option FrameType :=
  if b = TYPE_COMMAND then some .command
  else if b = TYPE_RESPONSE then some .response
  else if b = TYPE_NOTIFICATION then some .notification
  else none

/-! A frame at the head of a byte sequence. -/

/-- The part of a frame after its type byte: command, length, parameters, checksum, trailer. `none` when fewer bytes
are left than it needs, which is `rem < 5` or `rem < L + 7` of spec/41_decode.md R123: the reads are of bytes that
are there, never past the end (spec/20_memory.md R55). -/
def takeBody : List Byte → Option (Byte × List Byte × Byte × Byte)
  | c :: h :: l :: body =>
    match body.drop (u16be h l).toNat with
    | cs :: tr :: _ => some (c, body.take (u16be h l).toNat, cs, tr)
    | _ => none
  | _ => none

/-- The frame that starts at the first byte, in the order of checks of spec/41_decode.md R120 to R123: end of buffer,
header, presence of the type byte, type, presence of the rest. A command frame is undefined to the receive side
(R122), so one that is not whole is rejected as BadType, not as truncated; a whole one is FRAME.COMMAND. -/
def decodeFrame : List Byte → Except StopReason WireFrame
  | [] => .error .endOfBuffer
  | h :: afterHeader =>
    if h = HDR then
      match afterHeader with
      | [] => .error .truncatedFrame
      | t :: afterType =>
        match FrameType.ofByte t with
        | none => .error .badType
        | some ty =>
          match takeBody afterType with
          | some (c, p, cs, tr) => .ok ⟨ty, c, p, cs, tr⟩
          | none => if ty = .command then .error .badType else .error .truncatedFrame
    else .error .badHeader

/-- The instruction of a frame row (spec/30_encoding.md R87). -/
def WireFrame.toInstr (w : WireFrame) : Instr :=
  match w.type with
  | .command => .frameCommand w.command w.parameters w.checksum w.trailer
  | .response => .frameResponse w.command w.parameters w.checksum w.trailer
  | .notification => .frameNotification w.command w.parameters w.checksum w.trailer

/-- The instruction of an opcode row, by the command byte alone (spec/43_session.md R175); an unlisted opcode has no
row (spec/30_encoding.md R85). -/
def decodeCommand (opcode : Byte) (params : List Byte) : Option Instr :=
  if opcode = OP_GET_MODULE_INFO then some (.getModuleInfo params)
  else if opcode = OP_SINGLE_POLL then some (.singlePoll params)
  else if opcode = OP_MULTI_POLL then some (.multiPoll params)
  else if opcode = OP_STOP_MULTI_POLL then some (.stopMultiPoll params)
  else if opcode = OP_SET_RX_DEMOD then some (.setRxDemod params)
  else if opcode = OP_EXEC_FAILURE then some (.execFailure params)
  else none

/-- The instruction of a host-operation row, by OPSEL (spec/30_encoding.md R90); 0x9 to 0xF select nothing. -/
def decodeRequest (r : Request) : Option Instr :=
  match r.opsel.toNat with
  | 0 => some (.opOpen r.channel r.timeout)
  | 1 => some .opClose
  | 2 => some (.opEncode r.cmd r.bytes)
  | 3 => some (.opDecode r.bytes)
  | 4 => some (.opSend r.cmd r.bytes)
  | 5 => some .opReceive
  | 6 => some (.opInvParse r.bytes)
  | 7 => some (.opErrParse r.bytes)
  | 8 => some (.opReadTags r.rounds)
  | _ => none

/-- The decoder: total, rejecting by name. -/
def decode : Code → Except Reject Instr
  | .request r =>
    match decodeRequest r with
    | some i => .ok i
    | none => .error (.badOpsel r.opsel)
  | .frame bytes =>
    match decodeFrame bytes with
    | .ok w => .ok w.toInstr
    | .error reason => .error (.stop reason)
  | .command opcode params =>
    match decodeCommand opcode params with
    | some i => .ok i
    | none => .error (.unlistedOpcode opcode)

/-! The encoder. -/

/-- A frame's bytes in wire order (spec/30_encoding.md R70). -/
def WireFrame.bytes (w : WireFrame) : List Byte :=
  [HDR, w.type.code, w.command, hi8 w.parameters.length, lo8 w.parameters.length]
    ++ w.parameters ++ [w.checksum, w.trailer]

/-- What each instruction is fetched as. -/
def encode : Instr → Code
  | .frameCommand c p cs tr => .frame (WireFrame.bytes ⟨.command, c, p, cs, tr⟩)
  | .frameResponse c p cs tr => .frame (WireFrame.bytes ⟨.response, c, p, cs, tr⟩)
  | .frameNotification c p cs tr => .frame (WireFrame.bytes ⟨.notification, c, p, cs, tr⟩)
  | .getModuleInfo p => .command OP_GET_MODULE_INFO p
  | .singlePoll p => .command OP_SINGLE_POLL p
  | .multiPoll p => .command OP_MULTI_POLL p
  | .stopMultiPoll p => .command OP_STOP_MULTI_POLL p
  | .setRxDemod p => .command OP_SET_RX_DEMOD p
  | .execFailure p => .command OP_EXEC_FAILURE p
  | .opOpen ch t => .request { opsel := 0, channel := ch, timeout := t }
  | .opClose => .request { opsel := 1 }
  | .opEncode c p => .request { opsel := 2, cmd := c, bytes := p }
  | .opDecode b => .request { opsel := 3, bytes := b }
  | .opSend c p => .request { opsel := 4, cmd := c, bytes := p }
  | .opReceive => .request { opsel := 5 }
  | .opInvParse p => .request { opsel := 6, bytes := p }
  | .opErrParse p => .request { opsel := 7, bytes := p }
  | .opReadTags r => .request { opsel := 8, rounds := r }

/-! The opcode table's patterns (spec/30_encoding.md R87). -/

/-- One row: the bits of the mask are fixed to the pattern's. Frame and opcode rows are 40-bit numbers over the prefix
of a frame, the byte at offset 0 the most significant; a host operation's is its 4-bit OPSEL. -/
structure Row where
  mnemonic : String
  pattern  : Nat
  mask     : Nat
  deriving DecidableEq, Repr

/-- A number is of the row's kind. -/
def Row.hits (r : Row) (bits : Nat) : Bool := bits &&& r.mask == r.pattern

def frameRows : List Row :=
  [⟨"FRAME.COMMAND", 0xAA00000000, 0xFFFF000000⟩,
   ⟨"FRAME.RESPONSE", 0xAA01000000, 0xFFFF000000⟩,
   ⟨"FRAME.NOTIFICATION", 0xAA02000000, 0xFFFF000000⟩]

def opcodeRows : List Row :=
  [⟨"GET_MODULE_INFO", 0x0000030000, 0x0000FF0000⟩,
   ⟨"SINGLE_POLL", 0x0000220000, 0x0000FF0000⟩,
   ⟨"MULTI_POLL", 0x0000270000, 0x0000FF0000⟩,
   ⟨"STOP_MULTI_POLL", 0x0000280000, 0x0000FF0000⟩,
   ⟨"SET_RX_DEMOD", 0x0000F00000, 0x0000FF0000⟩,
   ⟨"EXEC_FAILURE", 0x0000FF0000, 0x0000FF0000⟩]

def hostopRows : List Row :=
  [⟨"OPEN", 0, 15⟩, ⟨"CLOSE", 1, 15⟩, ⟨"ENCODE", 2, 15⟩, ⟨"DECODE", 3, 15⟩, ⟨"SEND", 4, 15⟩,
   ⟨"RECEIVE", 5, 15⟩, ⟨"INVPARSE", 6, 15⟩, ⟨"ERRPARSE", 7, 15⟩, ⟨"READTAGS", 8, 15⟩]

/-- The first five bytes as the number of R87; `none` when there are fewer. -/
def prefixBits : List Byte → Option Nat
  | b0 :: b1 :: b2 :: b3 :: b4 :: _ =>
    some (b0.toNat * 2 ^ 32 + b1.toNat * 2 ^ 24 + b2.toNat * 2 ^ 16 + b3.toNat * 2 ^ 8 + b4.toNat)
  | _ => none

/-- The mnemonic an instruction has in the opcode table. -/
def Instr.mnemonic : Instr → String
  | .frameCommand _ _ _ _ => "FRAME.COMMAND"
  | .frameResponse _ _ _ _ => "FRAME.RESPONSE"
  | .frameNotification _ _ _ _ => "FRAME.NOTIFICATION"
  | .getModuleInfo _ => "GET_MODULE_INFO"
  | .singlePoll _ => "SINGLE_POLL"
  | .multiPoll _ => "MULTI_POLL"
  | .stopMultiPoll _ => "STOP_MULTI_POLL"
  | .setRxDemod _ => "SET_RX_DEMOD"
  | .execFailure _ => "EXEC_FAILURE"
  | .opOpen _ _ => "OPEN"
  | .opClose => "CLOSE"
  | .opEncode _ _ => "ENCODE"
  | .opDecode _ => "DECODE"
  | .opSend _ _ => "SEND"
  | .opReceive => "RECEIVE"
  | .opInvParse _ => "INVPARSE"
  | .opErrParse _ => "ERRPARSE"
  | .opReadTags _ => "READTAGS"

/-- The mnemonics of the table's rows that a fetched code hits: the frame rows over a frame's prefix, the opcode rows
over the command byte in its place in the prefix, the host-operation rows over OPSEL. -/
def Code.rows : Code → List String
  | .request r => (hostopRows.filter (·.hits r.opsel.toNat)).map (·.mnemonic)
  | .frame bytes =>
    match prefixBits bytes with
    | some n => (frameRows.filter (·.hits n)).map (·.mnemonic)
    | none => []
  | .command opcode _ => (opcodeRows.filter (·.hits (opcode.toNat * 2 ^ 16))).map (·.mnemonic)

/-! The host's question about one row (log 24). -/

/-- The code of a word numbered as spec/opcode_table.json numbers it: at most 8 bits are an OPSEL (a number above 15 is
no OPSEL and goes to the refused code 0xF); otherwise the word is the 40-bit prefix of R87, a frame when its first
byte is the header, with every later byte 0, and a command byte when it is not. -/
def tableCode (nbits w : Nat) : Code :=
  if nbits ≤ 8 then .request { opsel := if w < 16 then BitVec.ofNat 4 w else 15 }
  else
    let byteAt (shift : Nat) : Byte := BitVec.ofNat 8 (w / 2 ^ shift)
    if byteAt 32 = HDR then
      .frame ([byteAt 32, byteAt 24, byteAt 16, byteAt 8, byteAt 0]
        ++ List.replicate ((u16be (byteAt 8) (byteAt 0)).toNat + 2) 0)
    else .command (byteAt 16) []

/-- The instruction the decoder reads from a word of the table. -/
def decodeTableWord (nbits w : Nat) : Option Instr :=
  match decode (tableCode nbits w) with
  | .ok i => some i
  | .error _ => none

end Sys2Proof
end

