-- ==== Sys2Proof/Machine/State.lean ====
section
/-! DEFINITION. The state of the block and of what it talks to, as plain data (spec/10_state.md), the state after
reset (R38, R39), and the ways a step can stop. -/

namespace Sys2Proof.Machine

/-- A Frame record (spec/10_state.md R27). `type` is the frame-type byte as decoded, `checksum` the byte read. -/
structure Frame where
  type          : Byte
  command       : Byte
  parameters    : List Byte
  checksum      : Byte
  checksumValid : Bool
  deriving DecidableEq, Repr

/-- An InventoryReport record (R29). `identifier` has 12 bytes. -/
structure InventoryReport where
  signalStrength  : Byte
  protocolControl : U16
  identifier      : List Byte
  crc             : U16
  deriving DecidableEq, Repr

/-- An ErrorReport record (R30): no code when there was no first parameter byte. -/
structure ErrorReport where
  errorCode : Option Byte
  cls       : ErrClass
  deriving DecidableEq, Repr

/-- The four causes of an IOError (spec/60_exceptions.md R195); a short write carries the count accepted (R190). -/
inductive IoCause where
  | write
  | shortWrite (count : Nat)
  | read
  | close
  deriving DecidableEq, Repr

/-- The errors an operation can end in (R190). -/
inductive OpError where
  | encodingError (length : Nat)
  | ioError (cause : IoCause)
  | payloadTooShort (length : Nat)
  deriving DecidableEq, Repr

/-- DECODE's result (spec/41_decode.md R128). -/
structure DecodeResult where
  frames : List Frame
  stop   : StopReason
  cursor : Nat
  rest   : List Byte
  deriving DecidableEq, Repr

/-- RECEIVE's result (spec/43_session.md R170). -/
structure ReceiveResult where
  frames : List Frame
  stop   : StopReason
  rest   : List Byte
  deriving DecidableEq, Repr

/-- READTAGS's result (spec/43_session.md R176). -/
structure TagsResult where
  pool       : List InventoryReport
  lastError  : Option ErrorReport
  shortCount : Nat
  stop       : StopReason
  rest       : List Byte
  deriving DecidableEq, Repr

/-- What an operation hands to the host when it ends (spec/00_scope.md R11). -/
inductive OpOutcome where
  /-- OPEN: the session. -/
  | opened
  /-- SEND and CLOSE: ok. -/
  | ok
  /-- ENCODE: the frame's bytes. -/
  | encoded (out : List Byte)
  /-- DECODE. -/
  | decoded (r : DecodeResult)
  /-- RECEIVE. -/
  | received (r : ReceiveResult)
  /-- INVPARSE. -/
  | inventory (r : InventoryReport)
  /-- ERRPARSE. -/
  | failure (r : ErrorReport)
  /-- READTAGS. -/
  | tags (r : TagsResult)
  /-- An error, as a value. -/
  | error (e : OpError)
  /-- The drain of RECEIVE or READTAGS was refused for want of room (spec/90_conflicts.md C11): no result (log 10). -/
  | rxOverflow
  deriving DecidableEq, Repr

/-- D_PHASE, the byte-serial form's phase (spec/41_decode.md R135). -/
inductive Phase where
  | hdr
  | type
  | cmd
  | lenH
  | lenL
  | param
  | csum
  | trl
  | stopped
  deriving DecidableEq, Repr

/-- The session record (spec/10_state.md R34) with its two flags (R26). -/
structure Session where
  channel     : Option Nat
  readTimeout : Nat
  sOpen       : Bool
  sBusy       : Bool
  deriving DecidableEq, Repr

/-- The encoder's working registers and TXBUF (R21, R33). -/
structure Encoder where
  eCmd  : Byte
  eLen  : U16
  eAcc  : Byte
  txbuf : List Byte
  deriving DecidableEq, Repr

/-- The decoder's working registers, RXBUF, FRAMES and STOP (R22, R23, R25, R28, R32), with the byte-serial form's
phase, count and staging sequence (spec/41_decode.md R135). -/
structure Decoder where
  rxbuf  : List Byte
  cursor : Nat
  frames : List Frame
  stop   : StopReason
  dType  : Byte
  dCmd   : Byte
  dLen   : U16
  dCnt   : U16
  dAcc   : Byte
  dCs    : Byte
  dPhase : Phase
  pbuf   : List Byte
  deriving DecidableEq, Repr

/-- What one READTAGS accumulates (spec/43_session.md R174). -/
structure Tags where
  pool       : List InventoryReport
  lastError  : Option ErrorReport
  shortCount : Nat
  deriving DecidableEq, Repr

/-- A session operation in flight: one that can wait for the channel. OPEN, CLOSE and the pure operations end in the step
that takes them. -/
inductive SessionOp where
  | send
  | receive
  | readTags
  deriving DecidableEq, Repr

/-- Where in its pseudocode the operation in flight stands: at the call `write` or `read` of the channel, the only two that
can block (spec/60_exceptions.md R211), at the head of the decode loop, or at the head of READTAGS's loop over the frames (log 13). -/
inductive Point where
  | idle
  | write
  | read
  | decode
  | dispatch
  deriving DecidableEq, Repr

/-- An answer to `write` (spec/43_session.md R166). After an error it is unknown how many bytes left: the oracle draws
the number, and no rule reads it (log 5). -/
inductive WriteAnswer where
  | count (n : Nat)
  | error (left : Nat)
  deriving DecidableEq, Repr

/-- An answer to `read` (R166): `chunk []` is `count 0`, "no data within timeout". -/
inductive ReadAnswer where
  | chunk (bytes : List Byte)
  | error
  deriving DecidableEq, Repr

/-- An answer to `close` (R166). -/
inductive CloseAnswer where
  | ok
  | error
  deriving DecidableEq, Repr

/-- The channel agent: its answers still to come, in order (log 3), the bytes it has accepted (log 21), and how many
answers to `close` were free values (log 27). -/
structure Channel where
  writes : List WriteAnswer
  reads  : List ReadAnswer
  closes : List CloseAnswer
  wire   : List Byte
  draws  : Nat
  deriving DecidableEq, Repr

/-- An event of the byte-serial form (spec/41_decode.md R135): `byte(b)`, or `end`, which is RECEIVE's zero-count read. -/
inductive SerialEvent where
  | byte (b : Byte)
  | finish
  deriving DecidableEq, Repr

/-- The machine. `enc`, `dec` and `tags` are the session's; `ser` is the byte-serial form's, which hears what a RECEIVE
reads (log 12); a pure operation works on registers of its own that end with it (spec/43_session.md R186, log 11). -/
structure State where
  session  : Session
  enc      : Encoder
  dec      : Decoder
  tags     : Tags
  batch    : List Frame
  rest     : List Byte
  op       : Option SessionOp
  point    : Point
  outcome  : Option OpOutcome
  port     : List Request
  ser      : Decoder
  chan     : Channel
  rxbufCap : Option Nat
  deriving DecidableEq, Repr

/-- RXLEN (spec/10_state.md R32): the length of RXBUF. -/
def State.rxlen (s : State) : Nat := s.dec.rxbuf.length

/-- Why the machine stops with a fault. -/
inductive Fault where
  /-- Raised by SEND and READTAGS, at their `write`, when the channel's answer is no answer of spec/43_session.md R166: a
  count, or a number of bytes that left, above the number of bytes written. Safe: the model stops where the contract
  gives nothing (log 4). -/
  | channelContract
  deriving DecidableEq, Repr

/-- Why a request has no step (spec/60_exceptions.md R205). -/
inductive Refusal where
  /-- Raised by `exec` for an instruction whose meaning is not written; none is left. Safe. -/
  | notModelled (mnemonic : String)
  /-- Raised by SEND, RECEIVE, READTAGS and CLOSE while S_BUSY = 1. Safe: R205 gives the request no step. -/
  | busy
  /-- Raised by SEND, RECEIVE, READTAGS and CLOSE with S_OPEN = 0. Safe: R205. -/
  | notOpen
  /-- Raised by OPEN with S_OPEN = 1. Safe: R205. -/
  | alreadyOpen
  /-- Raised by the fetch of a request whose OPSEL is 0x9 to 0xF. Safe: R205. -/
  | badOpsel
  deriving DecidableEq, Repr

/-- The encoder's registers after reset: TXBUF empty (R38), the rest unspecified (R39; zero is log 8). -/
def Encoder.reset : Encoder := { eCmd := 0, eLen := 0, eAcc := 0, txbuf := [] }

/-- The decoder's registers after reset: RXBUF, CURSOR, FRAMES, STOP by R38, D_PHASE by R39, the rest unspecified
(R39; zero is log 8). -/
def Decoder.reset : Decoder :=
  { rxbuf := [], cursor := 0, frames := [], stop := .endOfBuffer, dType := 0, dCmd := 0, dLen := 0, dCnt := 0,
    dAcc := 0, dCs := 0, dPhase := .hdr, pbuf := [] }

/-- What a READTAGS starts from (spec/10_state.md R40). -/
def Tags.empty : Tags := { pool := [], lastError := none, shortCount := 0 }

/-- The machine right after reset (R38, R39). READ_TIMEOUT is unspecified (zero is log 8); RXBUF_CAP is unbounded, its
default (spec/00_scope.md R7, log 6). -/
def State.reset : State :=
  { session := { channel := none, readTimeout := 0, sOpen := false, sBusy := false }
    enc := Encoder.reset
    dec := Decoder.reset
    tags := Tags.empty
    batch := []
    rest := []
    op := none
    point := .idle
    outcome := none
    port := []
    ser := Decoder.reset
    chan := { writes := [], reads := [], closes := [], wire := [], draws := 0 }
    rxbufCap := none }

end Sys2Proof.Machine
end

