-- ==== Sys2Proof/Machine/Flags.lean ====
section
/-! DEFINITION. The flag computations: the checksum and `checksum_valid` (spec/40_encode.md R100, spec/41_decode.md R124),
the numeric codes of STOP and of the errors (spec/10_state.md R25, spec/60_exceptions.md R190), and the preconditions
on S_OPEN and S_BUSY (spec/43_session.md R186). -/

namespace Sys2Proof.Machine

/-- CSUM(s) = (s[0] + ... + s[len(s)-1]) mod 256 (R100). -/
def csum (s : List Byte) : Byte := BitVec.ofNat 8 ((s.map BitVec.toNat).sum % 256)

/-- The bytes a frame's checksum covers, wire offsets 1 to 4 + L (spec/30_encoding.md R75). -/
def coveredBytes (type cmd : Byte) (params : List Byte) : List Byte :=
  [type, cmd, hi8 params.length, lo8 params.length] ++ params

/-- The checksum of a frame with these fields (R100). -/
def frameChecksum (type cmd : Byte) (params : List Byte) : Byte := csum (coveredBytes type cmd params)

/-- `checksum_valid`: the recomputed checksum equals the byte read (spec/41_decode.md R124, spec/10_state.md R24). -/
def checksumMatches (type cmd : Byte) (params : List Byte) (checksum : Byte) : Bool :=
  frameChecksum type cmd params == checksum

/-- The code of a stop reason (spec/10_state.md R25). -/
def stopCode : StopReason → Nat
  | .endOfBuffer => 0
  | .badHeader => 1
  | .badType => 2
  | .truncatedFrame => 3

/-- The code of an error (spec/60_exceptions.md R190). -/
def errorCode : OpError → Nat
  | .encodingError _ => 1
  | .ioError _ => 2
  | .payloadTooShort _ => 3

/-- The ERR status of an outcome (spec/60_exceptions.md R190): 0 no error, 4 a device execution failure reported by
READTAGS. The refusal RxOverflow has no code. -/
def OpOutcome.errStatus : OpOutcome → Option Nat
  | .error e => some (errorCode e)
  | .tags r => some (if r.lastError.isSome then 4 else 0)
  | .opened => some 0
  | .ok => some 0
  | .encoded _ => some 0
  | .decoded _ => some 0
  | .received _ => some 0
  | .inventory _ => some 0
  | .failure _ => some 0
  | .rxOverflow => none

/-- Why SEND, RECEIVE, READTAGS or CLOSE has no step: they need S_OPEN = 1 and S_BUSY = 0 (spec/43_session.md R186). With
both unmet, which no run reaches, NotOpen is said (log 18). -/
def State.sessionRefusal (s : State) : Option Refusal :=
  if s.session.sOpen = false then some .notOpen
  else if s.session.sBusy = true then some .busy
  else none

end Sys2Proof.Machine
end

