-- ==== Sys2Proof/Machine/Operands.lean ====
section
/-! DEFINITION. The operand forms: the layouts of a Frame's parameters (spec/30_encoding.md R82), the parameters
READTAGS builds (R80), and the frame constructor FRAME(t, c, p) (R72). -/

namespace Sys2Proof.Machine

open Config

/-- FRAME(t, c, p) (R72). -/
def frameBytes (type cmd : Byte) (params : List Byte) : List Byte :=
  [HDR, type, cmd, hi8 params.length, lo8 params.length] ++ params ++ [frameChecksum type cmd params, TRL]

/-- A payload read as an inventory report (spec/42_payload.md R150); its length when it has fewer than 17 bytes (R151).
Bytes from offset 17 on are ignored. -/
def inventoryReport (p : List Byte) : Except Nat InventoryReport :=
  if h : p.length < INV_MIN_LEN then .error p.length
  else
    have h17 : 17 ≤ p.length := Nat.le_of_not_lt h
    .ok { signalStrength := p[0]
          protocolControl := u16be p[1] p[2]
          identifier := (p.drop 3).take ID_LEN
          crc := u16be p[15] p[16] }

/-- A payload read as an error report (spec/42_payload.md R155); it never fails (R157). -/
def errorReport : List Byte → ErrorReport
  | [] => { errorCode := none, cls := .unknown }
  | b :: _ => { errorCode := some b, cls := Config.errClass b }

/-- The round count of a multi-poll: min(rounds, 255), which saturates (spec/43_session.md R174). -/
def pollRounds (rounds : Nat) : Byte := BitVec.ofNat 8 (min rounds 255)

/-- The parameters of a multi-poll (spec/30_encoding.md R80). -/
def multiPollParams (rounds : Nat) : List Byte := [0x22, 0x00, pollRounds rounds]

end Sys2Proof.Machine
end

