-- ==== Sys2Proof/Machine/Serial.lean ====
section
/-! DEFINITION. The byte-serial form of DECODE (spec/41_decode.md R135), on registers of its own (log 12). Its `rxbuf` holds
the bytes received since the last completed frame, which is what `rest` needs. -/

namespace Sys2Proof.Machine

open Config

/-- The Frame appended in phase TRL. -/
def Decoder.serialFrame (d : Decoder) : Frame :=
  { type := d.dType, command := d.dCmd, parameters := d.pbuf, checksum := d.dCs, checksumValid := d.dAcc == d.dCs }

/-- `byte(b)` by phase: the table of R135. -/
def Decoder.serialPhase (b : Byte) (d : Decoder) : Decoder :=
  match d.dPhase with
  | .hdr =>
    if b = HDR then { d with dAcc := 0, dPhase := .type } else { d with stop := .badHeader, dPhase := .stopped }
  | .type =>
    if b = TYPE_RESPONSE ∨ b = TYPE_NOTIFICATION then { d with dType := b, dAcc := b, dPhase := .cmd }
    else { d with stop := .badType, dPhase := .stopped }
  | .cmd => { d with dCmd := b, dAcc := d.dAcc + b, dPhase := .lenH }
  | .lenH => { d with dLen := BitVec.ofNat 16 (256 * b.toNat), dAcc := d.dAcc + b, dPhase := .lenL }
  | .lenL =>
    let len := d.dLen + b.setWidth 16
    { d with dLen := len, dAcc := d.dAcc + b, dCnt := 0, pbuf := [], dPhase := if len = 0 then .csum else .param }
  | .param =>
    let cnt := d.dCnt + 1
    { d with pbuf := d.pbuf ++ [b], dAcc := d.dAcc + b, dCnt := cnt, dPhase := if cnt = d.dLen then .csum else .param }
  | .csum => { d with dCs := b, dPhase := .trl }
  | .trl =>
    { d with frames := d.frames ++ [d.serialFrame], cursor := d.cursor + d.dLen.toNat + OVERHEAD, rxbuf := []
             dPhase := .hdr }
  | .stopped => d

/-- `byte(b)`: the byte is kept for the rest, then the phase's effect. -/
def Decoder.serialByte (d : Decoder) (b : Byte) : Decoder := { d with rxbuf := d.rxbuf ++ [b] }.serialPhase b

/-- The stop reason on `end`. -/
def Decoder.serialStop (d : Decoder) : StopReason :=
  match d.dPhase with
  | .hdr => .endOfBuffer
  | .stopped => d.stop
  | .type => .truncatedFrame
  | .cmd => .truncatedFrame
  | .lenH => .truncatedFrame
  | .lenL => .truncatedFrame
  | .param => .truncatedFrame
  | .csum => .truncatedFrame
  | .trl => .truncatedFrame

/-- The result on `end`. -/
def Decoder.serialResult (d : Decoder) : DecodeResult :=
  { frames := d.frames, stop := d.serialStop, cursor := d.cursor, rest := d.rxbuf }

/-- One event. On `end` the stop reason is written and nothing more is taken (log 12). -/
def Decoder.serialEvent (d : Decoder) : SerialEvent → Decoder
  | .byte b => d.serialByte b
  | .finish => { d with stop := d.serialStop, dPhase := .stopped }

end Sys2Proof.Machine
end

