-- ==== Sys2Proof/Machine/Ops.lean ====
section
/-! DEFINITION. The operations the meanings share: emitting into TXBUF, one iteration of the decode loop and the loop,
the drain, the channel calls, ending an operation with a result or an error, and the loops of READTAGS. -/

namespace Sys2Proof.Machine

open Config

/-! ENCODE (spec/40_encode.md R103). -/

/-- emit(b): append b to TXBUF. -/
def Encoder.emit (b : Byte) (e : Encoder) : Encoder := { e with txbuf := e.txbuf ++ [b] }

/-- emit_sum(b): append b and add it to E_ACC modulo 256. -/
def Encoder.emitSum (b : Byte) (e : Encoder) : Encoder := { e.emit b with eAcc := e.eAcc + b }

/-- ENCODE after its length check: the frame stands in TXBUF. -/
def Encoder.emitFrame (cmd : Byte) (params : List Byte) (e : Encoder) : Encoder :=
  let e0 := { e with eCmd := cmd, eLen := BitVec.ofNat 16 params.length, eAcc := 0, txbuf := [] }
  let e1 := ((((e0.emit HDR).emitSum TYPE_COMMAND).emitSum cmd).emitSum (hi8 params.length)).emitSum (lo8 params.length)
  let e2 := params.foldl (fun e b => e.emitSum b) e1
  (e2.emit e2.eAcc).emit TRL

/-- ENCODE: the encoder with the frame in TXBUF, or EncodingError with the offending length (R104). -/
def Encoder.encode (cmd : Byte) (params : List Byte) (e : Encoder) : Except OpError Encoder :=
  if params.length > MAX_PARAM_LEN then .error (.encodingError params.length) else .ok (e.emitFrame cmd params)

/-! DECODE (spec/41_decode.md R120 to R128). -/

/-- The Frame a whole frame is turned into (R124, R126). -/
def frameOf (w : WireFrame) : Frame :=
  { type := w.type.code, command := w.command, parameters := w.parameters, checksum := w.checksum
    checksumValid := checksumMatches w.type.code w.command w.parameters w.checksum }

/-- The bytes not yet consumed, RXBUF[CURSOR .. RXLEN); their number is `rem`. -/
def Decoder.remaining (d : Decoder) : List Byte := d.rxbuf.drop d.cursor

/-- The working registers as DECODE1 has written them when it stops (R126): D_TYPE once the header was right and the
type byte present, D_CMD and D_LEN once the type was right and the prefix present. -/
def Decoder.latch (d : Decoder) : Decoder :=
  match d.remaining with
  | h :: t :: afterType =>
    if h = HDR then
      if t = TYPE_RESPONSE ∨ t = TYPE_NOTIFICATION then
        match afterType with
        | c :: hi :: lo :: _ => { d with dType := t, dCmd := c, dLen := u16be hi lo }
        | _ => { d with dType := t }
      else { d with dType := t }
    else d
  | _ => d

/-- DECODE1's effect on a recognised frame (R124, R125): the registers, one more Frame, CURSOR past the trailer. -/
def Decoder.accept (w : WireFrame) (d : Decoder) : Decoder :=
  { d with
    dType := w.type.code
    dCmd := w.command
    dLen := BitVec.ofNat 16 w.parameters.length
    dCs := w.checksum
    dAcc := frameChecksum w.type.code w.command w.parameters
    frames := d.frames ++ [frameOf w]
    cursor := d.cursor + w.parameters.length + OVERHEAD }

/-- DECODE1 (R126): a frame taken, or the reason the loop stops with FRAMES and CURSOR as they were. -/
def Decoder.decode1 (d : Decoder) : Decoder × Option StopReason :=
  match decodeFrame d.remaining with
  | .error r => (d.latch, some r)
  | .ok w =>
    match w.type with
    | .command => (d.latch, some .badType)
    | .response => (d.accept w, none)
    | .notification => (d.accept w, none)

/-- The decode loop. A pass that takes a frame consumes at least 7 bytes (R131), so `rem` passes suffice; with none left
to make, no byte is left either, and the reason is EndOfBuffer (R120). -/
def Decoder.loop : Nat → Decoder → Decoder × StopReason
  | 0, d => (d, .endOfBuffer)
  | n + 1, d =>
    match d.decode1 with
    | (d', some r) => (d', r)
    | (d', none) => d'.loop n

/-- DECODE1 repeated until it stops. -/
def Decoder.run (d : Decoder) : Decoder × StopReason := d.loop d.remaining.length

/-- DECODE's result when the loop has stopped for `r` (R128). -/
def Decoder.result (d : Decoder) (r : StopReason) : DecodeResult :=
  { frames := d.frames, stop := r, cursor := d.cursor, rest := d.remaining }

/-- "consuming the buffer" (R128): STOP written; RXBUF, FRAMES and CURSOR back at their start (spec/10_state.md R23, R34,
R40). STOP lasts to the end of the operation (log 9). -/
def Decoder.consume (r : StopReason) (d : Decoder) : Decoder :=
  { d with stop := r, rxbuf := [], cursor := 0, frames := [] }

/-- Registers of its own for one DECODE of `buf` (R128, spec/43_session.md R186): CURSOR 0, no frames. -/
def Decoder.ofBuffer (buf : List Byte) : Decoder := { Decoder.reset with rxbuf := buf }

/-- DECODE as a pure function of its operand (R128). -/
def decodeBuffer (buf : List Byte) : DecodeResult :=
  (Decoder.ofBuffer buf).run.1.result (Decoder.ofBuffer buf).run.2

/-! READTAGS's accumulation (spec/43_session.md R174 to R180). -/

/-- An inventory payload: counted when short (R177), inserted when its identifier is new (R179). -/
def Tags.inventory (p : List Byte) (t : Tags) : Tags :=
  match inventoryReport p with
  | .error _ => { t with shortCount := t.shortCount + 1 }
  | .ok rep =>
    if t.pool.any (fun e => e.identifier == rep.identifier) then t else { t with pool := t.pool ++ [rep] }

/-- An execution failure: the last one wins (R180). -/
def Tags.failure (p : List Byte) (t : Tags) : Tags := { t with lastError := some (errorReport p) }

/-- The dispatch of one frame by its command byte alone (R175). -/
def Tags.dispatch (t : Tags) (f : Frame) : Tags :=
  if f.command = OP_SINGLE_POLL then t.inventory f.parameters
  else if f.command = OP_EXEC_FAILURE then t.failure f.parameters
  else t

/-! Starting and ending a session operation. -/

/-- A session operation starts: S_BUSY is set, there is no outcome yet. -/
def State.start (o : SessionOp) (p : Point) (s : State) : State :=
  { s with session := { s.session with sBusy := true }, op := some o, point := p, outcome := none }

/-- The end of a session operation, whatever its outcome (spec/60_exceptions.md R201, spec/70_reset_and_hazards.md R235):
S_BUSY is 0, the outcome is the host's, and everything outside the Session record is back at its value after reset
(spec/10_state.md R34, R40), the working registers apart, which have none (R39). S_OPEN is unchanged. -/
def State.conclude (r : OpOutcome) (s : State) : State :=
  { s with
    session := { s.session with sBusy := false }
    enc := { s.enc with txbuf := [] }
    dec := { s.dec with rxbuf := [], cursor := 0, frames := [], stop := .endOfBuffer }
    tags := Tags.empty
    batch := []
    rest := []
    op := none
    point := .idle
    ser := Decoder.reset
    outcome := some r }

/-- `raise` inside a session operation (spec/00_scope.md R10, spec/60_exceptions.md R201): this block's way of taking an
exception. There is no handler, saved state or return (R201, R202): the error is the outcome and the operation is over. -/
def State.raise (e : OpError) (s : State) : State := s.conclude (.error e)

/-- The outcome of a pure operation: nothing else outlives it. -/
def State.answer (r : OpOutcome) (s : State) : State := { s with outcome := some r }

/-- Going on with a next state; a fault or a refusal ends the step. -/
def andThen (o : Host.Outcome State Fault Refusal) (f : State → State) : Host.Outcome State Fault Refusal :=
  match o with
  | .next s => .next (f s)
  | .fault r => .fault r
  | .refused r => .refused r

/-! The channel calls (spec/43_session.md R166). An operation at a call whose answer has not come waits there
(spec/60_exceptions.md R211, log 3). -/

/-- The channel accepts the first `n` bytes of TXBUF, in order. -/
def Channel.accept (n : Nat) (bytes : List Byte) (ws : List WriteAnswer) (c : Channel) : Channel :=
  { c with writes := ws, wire := c.wire ++ bytes.take n }

/-- RECEIVE's start (R170): RXBUF empty, the byte-serial form at the start of a buffer (spec/41_decode.md R135), the first
`read` next. -/
def State.beginReceive (s : State) : State :=
  { s with dec := { s.dec with rxbuf := [], cursor := 0, frames := [] }, ser := Decoder.reset, point := .read }

/-- What follows a whole write: SEND is over (R167); READTAGS goes on to RECEIVE (R174). -/
def State.written (s : State) : State :=
  match s.op with
  | some .readTags =>
    { s with enc := { s.enc with txbuf := [] } }.beginReceive
  | _ => s.conclude .ok

/-- The one `write` of SEND, with the whole frame in TXBUF (R167, R168). -/
def State.write (s : State) : Host.Outcome State Fault Refusal :=
  match s.chan.writes with
  | [] => .next s
  | .count n :: ws =>
    if n < s.enc.txbuf.length then
      .next ({ s with chan := s.chan.accept n s.enc.txbuf ws }.raise (.ioError (.shortWrite n)))
    else if n = s.enc.txbuf.length then
      .next { s with chan := s.chan.accept n s.enc.txbuf ws }.written
    else .fault .channelContract
  | .error left :: ws =>
    if left ≤ s.enc.txbuf.length then
      .next ({ s with chan := s.chan.accept left s.enc.txbuf ws }.raise (.ioError .write))
    else .fault .channelContract

/-- SEND from its ENCODE on (R167): EncodingError before any write, or the frame at the `write`. -/
def State.sendFrame (cmd : Byte) (params : List Byte) (s : State) : Host.Outcome State Fault Refusal :=
  match s.enc.encode cmd params with
  | .error e => .next (s.raise e)
  | .ok e => { s with enc := e, point := .write }.write

/-- How a drain stands. -/
inductive Drain where
  /-- The answers given are used up and none ended it. -/
  | waiting (buf : List Byte)
  /-- A zero-count read ended it. -/
  | done (buf : List Byte)
  /-- A read answered an error. -/
  | failed
  /-- A chunk would pass RXBUF_CAP. -/
  | overflow
  deriving DecidableEq, Repr

/-- A buffer of `n` bytes passes the capacity. -/
def exceeds (cap : Option Nat) (n : Nat) : Bool :=
  match cap with
  | none => false
  | some c => decide (c < n)

/-- The drain (R170): chunks appended in arrival order until a read yields zero bytes or fails; with the answers left. -/
def drain (cap : Option Nat) (buf : List Byte) : List ReadAnswer → Drain × List ReadAnswer
  | [] => (.waiting buf, [])
  | .error :: rs => (.failed, rs)
  | .chunk [] :: rs => (.done buf, rs)
  | .chunk (b :: bs) :: rs =>
    if exceeds cap (buf.length + (b :: bs).length) then (.overflow, rs)
    else drain cap (buf ++ b :: bs) rs

/-- RXBUF grown to `buf`; the byte-serial form takes the new bytes, in order. -/
def State.hear (buf : List Byte) (s : State) : State :=
  { s with dec := { s.dec with rxbuf := buf }, ser := (buf.drop s.rxlen).foldl Decoder.serialByte s.ser }

/-- What a drain leaves: it waits at the next `read`, it has filled RXBUF for DECODE (R128), or it has ended the operation
with IOError (R171) or without a result (spec/90_conflicts.md C11, log 10). The zero-count read is the byte-serial form's
`end` (spec/41_decode.md R135). -/
def State.drained (o : Drain) (s : State) : State :=
  match o with
  | .waiting buf => s.hear buf
  | .done buf =>
    { s with dec := { s.dec with rxbuf := buf, cursor := 0, frames := [] }
             ser := (s.hear buf).ser.serialEvent .finish, point := .decode }
  | .failed => s.raise (.ioError .read)
  | .overflow => s.conclude .rxOverflow

/-- The drain with every answer the channel has. -/
def State.drainAll (s : State) : State :=
  { s with chan := { s.chan with reads := (drain s.rxbufCap s.dec.rxbuf s.chan.reads).2 } }.drained
    (drain s.rxbufCap s.dec.rxbuf s.chan.reads).1

/-- The drain's pass with one answer. -/
def State.readOne (a : ReadAnswer) (rs : List ReadAnswer) (s : State) : State :=
  { s with chan := { s.chan with reads := rs } }.drained (drain s.rxbufCap s.dec.rxbuf [a]).1

/-- The end of the decode loop (R128, R170, R174): RECEIVE is over; READTAGS starts its loop over the frames. -/
def State.endDecode (r : StopReason) (s : State) : State :=
  match s.op with
  | some .readTags =>
    { s with dec := s.dec.consume r, tags := Tags.empty, batch := s.dec.frames, rest := s.dec.remaining
             point := .dispatch, ser := Decoder.reset }
  | _ =>
    { s with dec := s.dec.consume r }.conclude
      (.received { frames := s.dec.frames, stop := r, rest := s.dec.remaining })

/-- The end of READTAGS's loop (R176). -/
def State.endTags (s : State) : State :=
  s.conclude (.tags { pool := s.tags.pool, lastError := s.tags.lastError, shortCount := s.tags.shortCount
                      stop := s.dec.stop, rest := s.rest })

/-- READTAGS's loop over the frames, to its end. -/
def State.runDispatch (s : State) : State :=
  match s.point with
  | .dispatch => { s with tags := s.batch.foldl Tags.dispatch s.tags, batch := [] }.endTags
  | _ => s

/-- The decode loop of an operation that stands at it, and what follows. -/
def State.runDecode (s : State) : State :=
  match s.point with
  | .decode => ({ s with dec := s.dec.run.1 }.endDecode s.dec.run.2).runDispatch
  | _ => s

/-- RECEIVE, or READTAGS from its RECEIVE on, for an operation that stands at `read`. -/
def State.runReceive (s : State) : State :=
  match s.point with
  | .read => s.drainAll.runDecode
  | _ => s

/-- The channel's answer to `close`, which does not block (spec/60_exceptions.md R211, spec/70_reset_and_hazards.md R233):
the one presented, else a free value (log 27). -/
def Channel.closeAnswer (c : Channel) : CloseAnswer :=
  match c.closes with
  | a :: _ => a
  | [] => if closeFails c.draws = true then .error else .ok

/-- The channel once it has answered `close`. -/
def Channel.closed (c : Channel) : Channel :=
  match c.closes with
  | _ :: cs => { c with closes := cs }
  | [] => { c with draws := c.draws + 1 }

/-- The `close` of CLOSE (R185): the session is gone whatever it answers. -/
def State.closeChannel (s : State) : State :=
  { s with session := { s.session with channel := none, sOpen := false }, chan := s.chan.closed }.conclude
    (match s.chan.closeAnswer with
     | .ok => .ok
     | .error => .error (.ioError .close))

/-- Block reset (spec/70_reset_and_hazards.md R220): every piece of the block's state at its value after reset. What lies
outside the block (the channel, what the host presents) and RXBUF_CAP stay (log 20). -/
def State.blockReset (s : State) : State :=
  { State.reset with port := s.port, chan := s.chan, rxbufCap := s.rxbufCap }

end Sys2Proof.Machine
end

