-- ==== Sys2Proof/Machine/Commands.lean ====
section
/-! DEFINITION. The opcode rows: what READTAGS does with a received frame, by its command byte (spec/43_session.md R175,
log 14). -/

namespace Sys2Proof.Machine

/-- A command that is "ignored as not relevant to inventory" (R175) and whose parameters are passed through unread
(spec/42_payload.md R158). -/
def State.passThrough (_params : List Byte) (s : State) : State := s

/-- GET_MODULE_INFO: passed through (R158). -/
def execGetModuleInfo (params : List Byte) (s : State) : Host.Outcome State Fault Refusal :=
  .next (s.passThrough params)

/-- SINGLE_POLL: an inventory report (spec/42_payload.md R150, spec/43_session.md R177, R179). -/
def execSinglePoll (params : List Byte) (s : State) : Host.Outcome State Fault Refusal :=
  .next { s with tags := s.tags.inventory params }

/-- MULTI_POLL: on the receive side its parameters are opaque (spec/30_encoding.md R78): passed through. READTAGS is what
sends it (spec/43_session.md R174). -/
def execMultiPoll (params : List Byte) (s : State) : Host.Outcome State Fault Refusal :=
  .next (s.passThrough params)

/-- STOP_MULTI_POLL: passed through (R158). -/
def execStopMultiPoll (params : List Byte) (s : State) : Host.Outcome State Fault Refusal :=
  .next (s.passThrough params)

/-- SET_RX_DEMOD: passed through (R158). -/
def execSetRxDemod (params : List Byte) (s : State) : Host.Outcome State Fault Refusal :=
  .next (s.passThrough params)

/-- EXEC_FAILURE: an error report, the last one wins (spec/42_payload.md R155, spec/43_session.md R180). -/
def execExecFailure (params : List Byte) (s : State) : Host.Outcome State Fault Refusal :=
  .next { s with tags := s.tags.failure params }

end Sys2Proof.Machine
end

