-- ==== Sys2Proof/Machine/Frames.lean ====
section
/-! DEFINITION. The frame rows: what the decode loop does with the whole frame it finds at CURSOR (spec/41_decode.md R122,
R124 to R126). -/

namespace Sys2Proof.Machine

/-- FRAME.COMMAND: the type byte is neither response nor notification, so the loop ends with BadType and the frame yields
nothing (R122, R126); ENCODE is what emits such a frame (log 15). -/
def execFrameCommand (_cmd : Byte) (_params : List Byte) (_checksum _trailer : Byte) (s : State) :
    Host.Outcome State Fault Refusal :=
  .next ({ s with dec := { s.dec with dType := Config.TYPE_COMMAND } }.endDecode .badType)

/-- FRAME.RESPONSE: one more Frame, valid or not, and CURSOR past the trailer, which is not looked at (R124, R125). -/
def execFrameResponse (cmd : Byte) (params : List Byte) (checksum trailer : Byte) (s : State) :
    Host.Outcome State Fault Refusal :=
  .next { s with dec := s.dec.accept ⟨.response, cmd, params, checksum, trailer⟩ }

/-- FRAME.NOTIFICATION: as a response, with its own type byte in the Frame (R77, R124, R125). -/
def execFrameNotification (cmd : Byte) (params : List Byte) (checksum trailer : Byte) (s : State) :
    Host.Outcome State Fault Refusal :=
  .next { s with dec := s.dec.accept ⟨.notification, cmd, params, checksum, trailer⟩ }

end Sys2Proof.Machine
end

