-- ==== Sys2Proof/Machine/Pure.lean ====
section
/-! DEFINITION. The pure operations ENCODE, DECODE, INVPARSE and ERRPARSE: no precondition on the session, working
registers of their own, nothing outlives them but the outcome (spec/43_session.md R186, log 11). -/

namespace Sys2Proof.Machine

/-- ENCODE (spec/40_encode.md R103, R104). -/
def execEncode (cmd : Byte) (params : List Byte) (s : State) : Host.Outcome State Fault Refusal :=
  match Encoder.reset.encode cmd params with
  | .error e => .next (s.answer (.error e))
  | .ok e => .next (s.answer (.encoded e.txbuf))

/-- DECODE (spec/41_decode.md R128). -/
def execDecode (buf : List Byte) (s : State) : Host.Outcome State Fault Refusal :=
  .next (s.answer (.decoded (decodeBuffer buf)))

/-- INVPARSE (spec/42_payload.md R150, R151). -/
def execInvParse (params : List Byte) (s : State) : Host.Outcome State Fault Refusal :=
  match inventoryReport params with
  | .error n => .next (s.answer (.error (.payloadTooShort n)))
  | .ok rep => .next (s.answer (.inventory rep))

/-- ERRPARSE (spec/42_payload.md R155, R157). -/
def execErrParse (params : List Byte) (s : State) : Host.Outcome State Fault Refusal :=
  .next (s.answer (.failure (errorReport params)))

end Sys2Proof.Machine
end

