-- ==== Sys2Proof/Machine/SessionOps.lean ====
section
/-! DEFINITION. The session operations OPEN, CLOSE, SEND, RECEIVE and READTAGS (spec/43_session.md). One that finds its
answers to `write` and `read` is over in one step (spec/70_reset_and_hazards.md R234); one that does not is left in
flight. -/

namespace Sys2Proof.Machine

/-- OPEN (R165): takes the channel and the timeout; sends and reads nothing. -/
def execOpen (channel readTimeout : Nat) (s : State) : Host.Outcome State Fault Refusal :=
  if s.session.sOpen = true then .refused .alreadyOpen
  else
    .next ({ s with session := { channel := some channel, readTimeout := readTimeout, sOpen := true, sBusy := false } }.answer
      .opened)

/-- CLOSE (R185): over in the step that takes it, so S_BUSY is 0 again when it is seen. -/
def execClose (s : State) : Host.Outcome State Fault Refusal :=
  match s.sessionRefusal with
  | some r => .refused r
  | none => .next s.closeChannel

/-- SEND (R167, R168). -/
def execSend (cmd : Byte) (params : List Byte) (s : State) : Host.Outcome State Fault Refusal :=
  match s.sessionRefusal with
  | some r => .refused r
  | none => (s.start .send .write).sendFrame cmd params

/-- A RECEIVE at its first `read` (R170). -/
def State.startReceive (s : State) : State := (s.start .receive .read).beginReceive

/-- RECEIVE (R170 to R173). -/
def execReceive (s : State) : Host.Outcome State Fault Refusal :=
  match s.sessionRefusal with
  | some r => .refused r
  | none => .next s.startReceive.runReceive

/-- READTAGS (R174 to R182): SEND of a multi-poll, RECEIVE, then the loop over the frames. S_BUSY is 1 throughout. -/
def execReadTags (rounds : Nat) (s : State) : Host.Outcome State Fault Refusal :=
  match s.sessionRefusal with
  | some r => .refused r
  | none =>
    andThen ((s.start .readTags .write).sendFrame Config.OP_MULTI_POLL (multiPollParams rounds)) State.runReceive

end Sys2Proof.Machine
end

