-- ==== Sys2Proof/Machine/Dispatch.lean ====
section
/-! DEFINITION. One arm per row of spec/opcode_table.json. -/

namespace Sys2Proof.Machine

def exec (i : Instr) (s : State) : Host.Outcome State Fault Refusal :=
  match i with
  | .frameCommand cmd params cs tr => Sys2Proof.Machine.execFrameCommand cmd params cs tr s
  | .frameResponse cmd params cs tr => Sys2Proof.Machine.execFrameResponse cmd params cs tr s
  | .frameNotification cmd params cs tr => Sys2Proof.Machine.execFrameNotification cmd params cs tr s
  | .getModuleInfo params => Sys2Proof.Machine.execGetModuleInfo params s
  | .singlePoll params => Sys2Proof.Machine.execSinglePoll params s
  | .multiPoll params => Sys2Proof.Machine.execMultiPoll params s
  | .stopMultiPoll params => Sys2Proof.Machine.execStopMultiPoll params s
  | .setRxDemod params => Sys2Proof.Machine.execSetRxDemod params s
  | .execFailure params => Sys2Proof.Machine.execExecFailure params s
  | .opOpen channel readTimeout => Sys2Proof.Machine.execOpen channel readTimeout s
  | .opClose => Sys2Proof.Machine.execClose s
  | .opEncode cmd params => Sys2Proof.Machine.execEncode cmd params s
  | .opDecode buf => Sys2Proof.Machine.execDecode buf s
  | .opSend cmd params => Sys2Proof.Machine.execSend cmd params s
  | .opReceive => Sys2Proof.Machine.execReceive s
  | .opInvParse params => Sys2Proof.Machine.execInvParse params s
  | .opErrParse params => Sys2Proof.Machine.execErrParse params s
  | .opReadTags rounds => Sys2Proof.Machine.execReadTags rounds s

end Sys2Proof.Machine
end

