-- ==== Sys2Proof/Machine/Fetch.lean ====
section
/-! DEFINITION. Where the next instruction comes from (log 13). A request at the command port first: one presented while
an operation is in flight meets S_BUSY (spec/60_exceptions.md R205). Else the operation in flight, if it can go on: its
channel call with the answer that has come, the frame at CURSOR, the next frame of READTAGS. Else nothing: the block
waits (spec/10_state.md R38, spec/60_exceptions.md R211). -/

namespace Sys2Proof.Machine

/-- What a step finds to do: an instruction to run in a state, or a move that no instruction of the table stands for. -/
inductive Fetched where
  | run (i : Instr) (s : State)
  | move (o : Host.Outcome State Fault Refusal)

/-- The decode loop: the frame at CURSOR, or the loop's end. -/
def fetchFrame (s : State) : Fetched :=
  match decodeFrame s.dec.remaining with
  | .ok w => .run w.toInstr s
  | .error r => .move (.next ({ s with dec := s.dec.latch }.endDecode r))

/-- READTAGS's loop: the next frame's command, or the loop's end. An unlisted command is ignored (spec/43_session.md
R175). -/
def fetchCommand (s : State) : Fetched :=
  match s.batch with
  | [] => .move (.next s.endTags)
  | f :: fs =>
    match decodeCommand f.command f.parameters with
    | some i => .run i { s with batch := fs }
    | none => .move (.next { s with batch := fs })

/-- The operation in flight, if its next move is possible, else nothing (log 22). -/
def fetchInFlight (s : State) : Fetched :=
  match s.point with
  | .idle => .move (.next s)
  | .write =>
    match s.chan.writes with
    | [] => .move (.next s)
    | _ :: _ => .move s.write
  | .read =>
    match s.chan.reads with
    | [] => .move (.next s)
    | a :: rs => .move (.next (s.readOne a rs))
  | .decode => fetchFrame s
  | .dispatch => fetchCommand s

/-- The fetch. -/
def fetch (s : State) : Fetched :=
  match s.port with
  | [] => fetchInFlight s
  | r :: rs =>
    match decodeRequest r with
    | some i => .run i { s with port := rs }
    | none => .move (.refused .badOpsel)

/-- The state in which `fetch` finds this code next: a request at the head of the port; a frame at CURSOR of a RECEIVE in
its decode loop; a command in the next frame of a READTAGS in its loop (log 13). -/
def State.place (c : Code) (s : State) : State :=
  match c with
  | .request r => { s with port := r :: s.port }
  | .frame bytes =>
    { s with port := [], op := some .receive, point := .decode, dec := { s.dec with rxbuf := bytes, cursor := 0 } }
  | .command opcode params =>
    { s with port := [], op := some .readTags, point := .dispatch
             batch := [{ type := Config.TYPE_RESPONSE, command := opcode, parameters := params, checksum := 0
                         checksumValid := checksumMatches Config.TYPE_RESPONSE opcode params 0 }] }

end Sys2Proof.Machine
end

