-- ==== Sys2Proof/Safety.lean ====
section
/-! DEFINITION. The terms claims use: the invariant of the machine (spec/10_state.md R23, R26, R27, R31; spec/41_decode.md
R131; spec/70_reset_and_hazards.md R235), a session ready for an operation, and states equal but for the working registers
(spec/10_state.md R39). -/

namespace Sys2Proof.Machine

open Config

/-- What a Frame made by the block satisfies (R27, R24): type response or notification, at most 65535 parameters, the flag
the checksum test. -/
def Frame.wf (f : Frame) : Prop :=
  (f.type = TYPE_RESPONSE ∨ f.type = TYPE_NOTIFICATION) ∧ f.parameters.length ≤ MAX_PARAM_LEN ∧
    f.checksumValid = checksumMatches f.type f.command f.parameters f.checksum

/-- The byte extent a Frame stands for, but for its trailer, which is in no field (R27). -/
def Frame.extent (f : Frame) (trailer : Byte) : List Byte :=
  [HDR, f.type, f.command, hi8 f.parameters.length, lo8 f.parameters.length] ++ f.parameters ++ [f.checksum, trailer]

/-- These bytes are exactly the extents of these frames, in order (R131 (b)). -/
def Extents (frames : List Frame) (bytes : List Byte) : Prop :=
  ∃ trailers : List Byte, trailers.length = frames.length ∧ bytes = (List.zipWith Frame.extent frames trailers).flatten

/-- No two entries of a pool share an identifier, and each identifier has 12 bytes (R31, R29). -/
def PoolOk (pool : List InventoryReport) : Prop :=
  pool.Pairwise (fun a b => a.identifier ≠ b.identifier) ∧ ∀ r ∈ pool, r.identifier.length = ID_LEN

/-- Which operation can be in flight at each control point (spec/43_session.md R167, R170, R174). -/
def OpAt : Point → Option SessionOp → Prop
  | .idle, o => o = none
  | .write, o => o = some .send ∨ o = some .readTags
  | .read, o => o = some .receive ∨ o = some .readTags
  | .decode, o => o = some .receive ∨ o = some .readTags
  | .dispatch, o => o = some .readTags

/-- Everything outside the Session record, the unspecified working registers apart, is as after reset: the state of R40 and
R235 between operations. -/
def State.Clean (s : State) : Prop :=
  s.enc.txbuf = [] ∧ s.dec.rxbuf = [] ∧ s.dec.cursor = 0 ∧ s.dec.frames = [] ∧ s.dec.stop = .endOfBuffer ∧
    s.tags = Tags.empty ∧ s.batch = [] ∧ s.rest = []

/-- What the byte-serial form's registers hold (spec/41_decode.md R135, log 12): at a `read`, what the bytes of RXBUF leave;
in the decode loop, that with `end`; else, the start of a buffer. -/
def State.heard (s : State) : Decoder :=
  match s.point with
  | .read => s.dec.rxbuf.foldl Decoder.serialByte Decoder.reset
  | .decode => (s.dec.rxbuf.foldl Decoder.serialByte Decoder.reset).serialEvent .finish
  | .idle => Decoder.reset
  | .write => Decoder.reset
  | .dispatch => Decoder.reset

/-- The invariant every step keeps. -/
structure State.Inv (s : State) : Prop where
  /-- S_BUSY is set exactly while an operation is in flight (R26). -/
  busy : s.session.sBusy = true ↔ s.point ≠ .idle
  /-- An operation in flight has its session open (R26, spec/43_session.md R186). -/
  open_of_busy : s.session.sBusy = true → s.session.sOpen = true
  /-- An open session holds a channel, a closed one none (R26, R34, spec/43_session.md R165, R185). -/
  channel : s.session.sOpen = true ↔ s.session.channel.isSome = true
  /-- The operation in flight is one that has this control point. -/
  op : OpAt s.point s.op
  /-- Between operations the buffers are empty (R40, R235). -/
  clean : s.point = .idle → s.Clean
  /-- CURSOR never passes RXLEN (R23, R131 (a)). -/
  cursor : s.dec.cursor ≤ s.rxlen
  /-- RXBUF[0 .. CURSOR) is the extents of FRAMES (R131 (b)). -/
  extents : Extents s.dec.frames (s.dec.rxbuf.take s.dec.cursor)
  /-- Every Frame held is one the decoder makes (R27). -/
  frames : (∀ f ∈ s.dec.frames, f.wf) ∧ ∀ f ∈ s.batch, f.wf
  /-- The TagPool has no duplicate (R31), nor has one handed to the host. -/
  pool : PoolOk s.tags.pool ∧ ∀ r, s.outcome = some (.tags r) → PoolOk r.pool
  /-- RXBUF is within its capacity (spec/20_memory.md R56). -/
  capacity : exceeds s.rxbufCap s.rxlen = false
  /-- What waits to be written is a whole command frame (spec/40_encode.md R108). -/
  outgoing : s.point = .write → ∃ cmd params, params.length ≤ MAX_PARAM_LEN ∧ s.enc.txbuf = frameBytes TYPE_COMMAND cmd params
  /-- Nothing is decoded before the drain has ended (spec/20_memory.md R63). -/
  draining : s.point = .read → s.dec.cursor = 0 ∧ s.dec.frames = []
  /-- STOP is written at the end of a DECODE and not before (R25, R38). -/
  stop : s.point ≠ .dispatch → s.dec.stop = .endOfBuffer
  /-- The buffer form leaves D_PHASE at HDR (R39); the byte-serial form uses its own. -/
  phase : s.dec.dPhase = .hdr
  /-- The byte-serial form has heard what the session has read. -/
  serial : s.ser = s.heard

/-- A session operation may start (spec/43_session.md R186), in a state of the invariant. -/
def State.Ready (s : State) : Prop := s.Inv ∧ s.session.sOpen = true ∧ s.session.sBusy = false

/-- The state without the session's working registers (R39). -/
def State.eraseWork (s : State) : State :=
  { s with
    enc := { s.enc with eCmd := 0, eLen := 0, eAcc := 0 }
    dec := { s.dec with dType := 0, dCmd := 0, dLen := 0, dCnt := 0, dAcc := 0, dCs := 0 } }

/-- MemRead(addr, n) over RXBUF (spec/00_scope.md R10). -/
def Decoder.memRead (d : Decoder) (addr n : Nat) : List Byte := (d.rxbuf.drop addr).take n

/-- A byte-addressed space (spec/20_memory.md R50) as (offset, byte) cells from offset `a` on. State holds each space as
the sequence of its bytes, which is this list without the offsets (log 16). -/
def Memory.cells : Nat → List Byte → List Host.Cell
  | _, [] => []
  | a, b :: bs => (a, b) :: Memory.cells (a + 1) bs

/-- The one form of such a list: offsets 0 to its length less 1, rising. An unlisted offset has no byte (R55). -/
def Memory.wf (m : List Host.Cell) : Bool := m.map Prod.fst == List.range m.length

/-- RECEIVE's result from DECODE's: without the cursor (spec/43_session.md R173). -/
def DecodeResult.received (r : DecodeResult) : OpOutcome := .received { frames := r.frames, stop := r.stop, rest := r.rest }

/-- First seen wins, order kept (spec/43_session.md R179), said without a loop over a pool. -/
def firstSeen : List InventoryReport → List InventoryReport
  | [] => []
  | r :: rs => r :: (firstSeen rs).filter (fun e => e.identifier != r.identifier)

/-- The inventory reports among some frames, in frame order (spec/43_session.md R175, R178). -/
def inventoryReports (frames : List Frame) : List InventoryReport :=
  frames.filterMap fun f => if f.command = OP_SINGLE_POLL then (inventoryReport f.parameters).toOption else none

/-- The number of 0x22 frames whose parameters are too short (spec/43_session.md R177). -/
def shortReports (frames : List Frame) : Nat :=
  (frames.filter fun f => f.command == OP_SINGLE_POLL && decide (f.parameters.length < INV_MIN_LEN)).length

/-- The report of the last execution-failure frame (spec/43_session.md R180). -/
def lastFailure (frames : List Frame) : Option ErrorReport :=
  ((frames.filter fun f => f.command == OP_EXEC_FAILURE).getLast?).map fun f => errorReport f.parameters

/-- The answers of a drain that goes on: chunks that are not empty and together within the capacity. -/
def State.drains (s : State) (chunks : List (List Byte)) : Prop :=
  (∀ c ∈ chunks, c ≠ []) ∧ exceeds s.rxbufCap chunks.flatten.length = false

/-- An operation in flight that can go on now. -/
def State.CanGoOn (s : State) : Prop :=
  (s.point = .write ∧ s.chan.writes ≠ []) ∨ (s.point = .read ∧ s.chan.reads ≠ []) ∨ s.point = .decode ∨
    s.point = .dispatch

/-- READTAGS at its `write` (spec/43_session.md R174): the multi-poll frame in TXBUF. -/
def State.startReadTags (s : State) (rounds : Nat) : State :=
  { s.start .readTags .write with enc := s.enc.emitFrame OP_MULTI_POLL (multiPollParams rounds) }

end Sys2Proof.Machine
end

