-- ==== Sys2Proof/Certificates/Slice0/Obligations.lean ====
section
/-! DEFINITION. The statements. Each docstring names the rules of spec/ it formalises; a clause that rests on a choice of
the model says so and names the log entry. -/

section

open Sys2Proof Sys2Proof.Machine Sys2Proof.Config

/-! ## Reset -/

/-- After reset the session is closed and idle, the buffers are empty, nothing is recorded, and the block does nothing
until the host requests an operation (spec/10_state.md R38). READ_TIMEOUT is unspecified by R38, so nothing is said of it. -/
def Obligations.ResetIsClosedIdleAndEmpty : Prop :=
  State.reset.session.sOpen = false ∧ State.reset.session.sBusy = false ∧ State.reset.session.channel = none ∧
  State.reset.dec.rxbuf = [] ∧ State.reset.rxlen = 0 ∧ State.reset.dec.cursor = 0 ∧ State.reset.dec.frames = [] ∧
  State.reset.enc.txbuf = [] ∧ State.reset.dec.stop = .endOfBuffer ∧ State.reset.outcome = none ∧
  step State.reset = .next State.reset

/-- The invariant holds after reset. -/
def Obligations.ResetMeetsTheInvariant : Prop := State.reset.Inv

/-- Every step keeps the invariant (spec/10_state.md R23, R26, R27, R31; spec/41_decode.md R131; R235). -/
def Obligations.StepKeepsTheInvariant : Prop :=
  ∀ s t : State, s.Inv → step s = .next t → t.Inv

/-- Block reset closes the session and empties the buffers from any state, and leaves the channel as it is (R220; that the
channel stays is the model's choice, log 20). Nothing is said of the registers R38 and R39 leave unspecified. -/
def Obligations.BlockResetClosesTheSession : Prop :=
  ∀ s : State, s.blockReset.Inv ∧ s.blockReset.session.sOpen = false ∧ s.blockReset.session.sBusy = false ∧
    s.blockReset.session.channel = none ∧ s.blockReset.point = .idle ∧ s.blockReset.Clean ∧
    s.blockReset.dec.dPhase = .hdr ∧ s.blockReset.ser.dPhase = .hdr ∧
    s.blockReset.ser.cursor = 0 ∧ s.blockReset.ser.frames = [] ∧ s.blockReset.ser.rxbuf = [] ∧
    s.blockReset.outcome = none ∧ s.blockReset.chan = s.chan

/-! ## Checksum -/

/-- CSUM is the sum of the unsigned byte values modulo 256, 0 for the empty sequence, and the checksum of a frame is CSUM of
type, command, both length bytes and parameters (spec/40_encode.md R100). -/
def Obligations.ChecksumIsTheByteSumModulo256 : Prop :=
  (∀ s : List Byte, (csum s).toNat = (s.map BitVec.toNat).sum % 256) ∧ csum [] = 0 ∧
  ∀ (t c : Byte) (p : List Byte),
    frameChecksum t c p = csum ([t, c, BitVec.ofNat 8 (p.length / 256), BitVec.ofNat 8 p.length] ++ p)

/-- The 8-bit accumulator, in any order of the bytes, gives CSUM, and the laws that follow (spec/40_encode.md R101). -/
def Obligations.ChecksumByAccumulatorInAnyOrder : Prop :=
  (∀ s s' : List Byte, s'.Perm s → s'.foldl (fun acc b => acc + b) 0 = csum s) ∧
  (∀ s t : List Byte, (csum (s ++ t)).toNat = ((csum s).toNat + (csum t).toNat) % 256) ∧
  (∀ s s' : List Byte, s'.Perm s → csum s' = csum s) ∧
  (∀ (n : Nat) (v : Byte), (csum (List.replicate n v)).toNat = n * v.toNat % 256)

/-- A change of exactly one covered byte changes the checksum; two changes whose differences cancel do not
(spec/40_encode.md R102). -/
def Obligations.OneChangedByteChangesTheChecksum : Prop :=
  (∀ (a z : List Byte) (b b' : Byte), b ≠ b' → csum (a ++ b :: z) ≠ csum (a ++ b' :: z)) ∧
  (∀ (a m z : List Byte) (b c k : Byte), csum (a ++ (b + k) :: m ++ (c - k) :: z) = csum (a ++ b :: m ++ c :: z))

/-! ## ENCODE -/

/-- ENCODE answers FRAME(0x00, cmd, params), or EncodingError with the length when and only when it exceeds 65535; it needs
no session and leaves all other state as it was (spec/40_encode.md R103, R104). -/
def Obligations.EncodeAnswersTheFrameOrAnError : Prop :=
  ∀ (s : State) (cmd : Byte) (params : List Byte),
    (params.length ≤ 65535 →
      exec (.opEncode cmd params) s =
        .next { s with outcome := some (.encoded (frameBytes TYPE_COMMAND cmd params)) }) ∧
    (65535 < params.length →
      exec (.opEncode cmd params) s =
        .next { s with outcome := some (.error (.encodingError params.length)) })

/-- The properties of ENCODE's result (spec/40_encode.md R105). -/
def Obligations.EncodeResultFields : Prop :=
  ∀ (s : State) (cmd : Byte) (params : List Byte), params.length ≤ 65535 →
    ∃ out : List Byte, exec (.opEncode cmd params) s = .next { s with outcome := some (.encoded out) } ∧
      out.length = params.length + 7 ∧ out[0]? = some 0xAA ∧ out[1]? = some 0x00 ∧ out[2]? = some cmd ∧
      (∃ h l : Byte, out[3]? = some h ∧ out[4]? = some l ∧ 256 * h.toNat + l.toNat = params.length) ∧
      (out.drop 5).take params.length = params ∧
      out[5 + params.length]? = some (csum ((out.drop 1).take (4 + params.length))) ∧
      out[6 + params.length]? = some 0xDD

/-! ## The frame decoder -/

/-- DECODE1 by offsets from CURSOR, in the order of its tests: the stop of each test with the working registers written so
far and FRAMES, CURSOR and RXBUF as they were, and what a recognised frame writes, appends and advances
(spec/41_decode.md R126). -/
def Obligations.Decode1FollowsItsTests : Prop :=
  ∀ d : Decoder, d.cursor ≤ d.rxbuf.length →
    (d.rxbuf.length - d.cursor = 0 → d.decode1 = (d, some .endOfBuffer)) ∧
    (∀ h, d.rxbuf[d.cursor]? = some h → h ≠ 0xAA → d.decode1 = (d, some .badHeader)) ∧
    (d.rxbuf[d.cursor]? = some 0xAA → d.rxbuf.length - d.cursor < 2 → d.decode1 = (d, some .truncatedFrame)) ∧
    (∀ t, d.rxbuf[d.cursor]? = some 0xAA → d.rxbuf[d.cursor + 1]? = some t → t ≠ 0x01 → t ≠ 0x02 →
      d.decode1 = ({ d with dType := t }, some .badType)) ∧
    (∀ t, d.rxbuf[d.cursor]? = some 0xAA → d.rxbuf[d.cursor + 1]? = some t → t = 0x01 ∨ t = 0x02 →
      (d.rxbuf.length - d.cursor < 5 → d.decode1 = ({ d with dType := t }, some .truncatedFrame)) ∧
      ∀ c h l, d.rxbuf[d.cursor + 2]? = some c → d.rxbuf[d.cursor + 3]? = some h → d.rxbuf[d.cursor + 4]? = some l →
        ∀ len, len = 256 * h.toNat + l.toNat →
          (d.rxbuf.length - d.cursor < len + 7 →
            d.decode1 = ({ d with dType := t, dCmd := c, dLen := BitVec.ofNat 16 len }, some .truncatedFrame)) ∧
          (len + 7 ≤ d.rxbuf.length - d.cursor →
            ∃ cs, d.rxbuf[d.cursor + 5 + len]? = some cs ∧
              d.decode1 =
                ({ d with
                   dType := t, dCmd := c, dLen := BitVec.ofNat 16 len, dCs := cs
                   dAcc := csum (d.memRead (d.cursor + 1) (4 + len))
                   frames := d.frames ++
                     [{ type := t, command := c, parameters := d.memRead (d.cursor + 5) len, checksum := cs
                        checksumValid := decide (csum (d.memRead (d.cursor + 1) (4 + len)) = cs) }]
                   cursor := d.cursor + len + 7 }, none)))

/-- DECODE is DECODE1 repeated from CURSOR 0 and no frames until it stops, within `len(buf) div 7` frames; it answers
frames, reason, cursor and rest in every state and never fails; the rest is empty exactly at EndOfBuffer
(spec/41_decode.md R128, the bound R131; that the session's STOP is not written is log 11, from spec/43_session.md R186). -/
def Obligations.DecodeRepeatsDecode1UntilItStops : Prop :=
  ∀ (s : State) (buf : List Byte), ∃ (n : Nat) (d : Nat → Decoder) (r : StopReason),
    n ≤ buf.length / 7 ∧
    d 0 = { Decoder.reset with rxbuf := buf, cursor := 0, frames := [] } ∧
    (∀ k, k < n → (d k).decode1 = (d (k + 1), none)) ∧
    (d n).decode1.2 = some r ∧
    exec (.opDecode buf) s =
      .next { s with outcome := some (.decoded
        { frames := (d n).frames, stop := r, cursor := (d n).cursor, rest := buf.drop (d n).cursor }) } ∧
    (buf.drop (d n).cursor = [] ↔ r = .endOfBuffer)

/-- The invariants of a DECODE at its end: the cursor is in the buffer, the bytes before it are the extents of the frames,
there are at most `len(buf) div 7` frames, cursor and rest make up the buffer (spec/41_decode.md R131; R27). -/
def Obligations.DecodeResultInvariants : Prop :=
  ∀ buf : List Byte,
    (decodeBuffer buf).cursor ≤ buf.length ∧
    Extents (decodeBuffer buf).frames (buf.take (decodeBuffer buf).cursor) ∧
    (∀ f ∈ (decodeBuffer buf).frames, f.wf) ∧
    (decodeBuffer buf).frames.length ≤ buf.length / 7 ∧
    (decodeBuffer buf).rest = buf.drop (decodeBuffer buf).cursor ∧
    (decodeBuffer buf).cursor + (decodeBuffer buf).rest.length = buf.length

/-- The concatenation law, and its case of N frames (spec/41_decode.md R132). -/
def Obligations.DecodeOfAConcatenation : Prop :=
  (∀ (a b : List Byte) (fa : List Frame),
    decodeBuffer a = { frames := fa, stop := .endOfBuffer, cursor := a.length, rest := [] } →
    decodeBuffer (a ++ b) =
      { frames := fa ++ (decodeBuffer b).frames, stop := (decodeBuffer b).stop
        cursor := a.length + (decodeBuffer b).cursor, rest := (decodeBuffer b).rest }) ∧
  (∀ fs : List (Byte × Byte × List Byte),
    (∀ f ∈ fs, (f.1 = 0x01 ∨ f.1 = 0x02) ∧ f.2.2.length ≤ 65535) →
    decodeBuffer (fs.map fun f => frameBytes f.1 f.2.1 f.2.2).flatten =
      { frames := fs.map fun f =>
          { type := f.1, command := f.2.1, parameters := f.2.2, checksum := frameChecksum f.1 f.2.1 f.2.2
            checksumValid := true }
        stop := .endOfBuffer
        cursor := (fs.map fun f => frameBytes f.1 f.2.1 f.2.2).flatten.length, rest := [] })

/-- What DECODE makes of a good frame with one byte changed, field by field, and of one cut short (spec/41_decode.md R133,
all but its clause (g), which describes no single result). -/
def Obligations.DecodeOfACorruptOrCutFrame : Prop :=
  ∀ (t c : Byte) (p : List Byte), t = 0x01 ∨ t = 0x02 → p.length ≤ 65535 →
    (∀ (i : Nat) (b : Byte), p[i]? ≠ some b → i < p.length →
      decodeBuffer ((frameBytes t c p).set (5 + i) b) =
        { frames := [{ type := t, command := c, parameters := p.set i b, checksum := frameChecksum t c p
                       checksumValid := false }]
          stop := .endOfBuffer, cursor := p.length + 7, rest := [] }) ∧
    (∀ c' : Byte, c' ≠ c →
      decodeBuffer ((frameBytes t c p).set 2 c') =
        { frames := [{ type := t, command := c', parameters := p, checksum := frameChecksum t c p
                       checksumValid := false }]
          stop := .endOfBuffer, cursor := p.length + 7, rest := [] }) ∧
    (∀ cs' : Byte, cs' ≠ frameChecksum t c p →
      decodeBuffer ((frameBytes t c p).set (5 + p.length) cs') =
        { frames := [{ type := t, command := c, parameters := p, checksum := cs', checksumValid := false }]
          stop := .endOfBuffer, cursor := p.length + 7, rest := [] }) ∧
    (∀ tr' : Byte, decodeBuffer ((frameBytes t c p).set (6 + p.length) tr') = decodeBuffer (frameBytes t c p)) ∧
    (∀ h' : Byte, h' ≠ 0xAA →
      decodeBuffer ((frameBytes t c p).set 0 h') =
        { frames := [], stop := .badHeader, cursor := 0, rest := (frameBytes t c p).set 0 h' }) ∧
    (∀ t' : Byte, t' ≠ 0x01 → t' ≠ 0x02 →
      decodeBuffer ((frameBytes t c p).set 1 t') =
        { frames := [], stop := .badType, cursor := 0, rest := (frameBytes t c p).set 1 t' }) ∧
    (∀ t' : Byte, t' = 0x01 ∨ t' = 0x02 → t' ≠ t →
      decodeBuffer ((frameBytes t c p).set 1 t') =
        { frames := [{ type := t', command := c, parameters := p, checksum := frameChecksum t c p
                       checksumValid := false }]
          stop := .endOfBuffer, cursor := p.length + 7, rest := [] }) ∧
    (∀ k : Nat, 1 ≤ k → k ≤ p.length + 6 →
      decodeBuffer ((frameBytes t c p).take (p.length + 7 - k)) =
        { frames := [], stop := .truncatedFrame, cursor := 0, rest := (frameBytes t c p).take (p.length + 7 - k) })

/-- DECODE of what ENCODE emits: no frame, BadType, CURSOR 0, everything in the rest (spec/30_encoding.md R79). -/
def Obligations.DecodeStopsOnAnEncodedFrame : Prop :=
  ∀ (s : State) (cmd : Byte) (params : List Byte), params.length ≤ 65535 →
    ∃ out : List Byte, exec (.opEncode cmd params) s = .next { s with outcome := some (.encoded out) } ∧
      exec (.opDecode out) s =
        .next { s with outcome := some (.decoded { frames := [], stop := .badType, cursor := 0, rest := out }) }

/-- The byte-serial form, fed the bytes of a buffer from the start of one (phase HDR, no frames, no bytes, counter 0; any
working registers), gives DECODE's result, before `end` and after (spec/41_decode.md R136). In the machine it hears what a
RECEIVE reads: at a `read` its result is DECODE of RXBUF, a RECEIVE whose drain ends hands that result over, and is then over
with the form ready for the next buffer (that it hears the reads is the model's choice, log 12). -/
def Obligations.SerialReceiverEqualsDecode : Prop :=
  (∀ (d : Decoder) (buf : List Byte), d.dPhase = .hdr → d.cursor = 0 → d.frames = [] → d.rxbuf = [] →
    (buf.foldl Decoder.serialByte d).serialResult = decodeBuffer buf ∧
    ((buf.foldl Decoder.serialByte d).serialEvent .finish).serialResult = decodeBuffer buf) ∧
  (∀ s : State, s.Inv → s.point = .read → s.ser.serialResult = decodeBuffer s.dec.rxbuf) ∧
  (∀ (s : State) (rs : List ReadAnswer), s.Inv → s.port = [] → s.op = some .receive → s.point = .read →
    s.chan.reads = .chunk [] :: rs →
    ∃ (n : Nat) (t : State), core.run n s = .next t ∧ t.outcome = some s.ser.serialResult.received ∧
      t.session.sBusy = false ∧ t.ser.dPhase = .hdr ∧ t.ser.cursor = 0 ∧ t.ser.frames = [] ∧ t.ser.rxbuf = [])

/-- The byte-serial form's table, phase by phase: what `byte(b)` writes and where it goes, every byte also kept for the rest
until its frame is complete, and the result on `end` (spec/41_decode.md R135). In the machine `byte(b)` is each byte a
RECEIVE or READTAGS reads and `end` its zero-count read, in the pass of the drain that takes it (spec/43_session.md R170;
that a pass feeds the form is the model's choice, log 12). -/
def Obligations.SerialReceiverFollowsItsTable : Prop :=
  (∀ (e d t : Decoder) (b : Byte), d = { e with rxbuf := e.rxbuf ++ [b] } → t = e.serialEvent (.byte b) →
    (e.dPhase = .hdr → b = 0xAA → t = { d with dAcc := 0, dPhase := .type }) ∧
    (e.dPhase = .hdr → b ≠ 0xAA → t = { d with stop := .badHeader, dPhase := .stopped }) ∧
    (e.dPhase = .type → b = 0x01 ∨ b = 0x02 → t = { d with dType := b, dAcc := b, dPhase := .cmd }) ∧
    (e.dPhase = .type → b ≠ 0x01 → b ≠ 0x02 → t = { d with stop := .badType, dPhase := .stopped }) ∧
    (e.dPhase = .cmd → t = { d with dCmd := b, dAcc := e.dAcc + b, dPhase := .lenH }) ∧
    (e.dPhase = .lenH →
      t = { d with dLen := BitVec.ofNat 16 (256 * b.toNat), dAcc := e.dAcc + b, dPhase := .lenL }) ∧
    (e.dPhase = .lenL → ∀ len : U16, len = BitVec.ofNat 16 (e.dLen.toNat + b.toNat) →
      t = { d with dLen := len, dAcc := e.dAcc + b, dCnt := 0, pbuf := []
                   dPhase := if len = 0 then .csum else .param }) ∧
    (e.dPhase = .param → ∀ cnt : U16, cnt = BitVec.ofNat 16 (e.dCnt.toNat + 1) →
      t = { d with pbuf := e.pbuf ++ [b], dAcc := e.dAcc + b, dCnt := cnt
                   dPhase := if cnt = e.dLen then .csum else .param }) ∧
    (e.dPhase = .csum → t = { d with dCs := b, dPhase := .trl }) ∧
    (e.dPhase = .trl →
      t = { d with
        frames := e.frames ++
          [{ type := e.dType, command := e.dCmd, parameters := e.pbuf, checksum := e.dCs
             checksumValid := decide (e.dAcc = e.dCs) }]
        cursor := e.cursor + e.dLen.toNat + 7, rxbuf := [], dPhase := .hdr }) ∧
    (e.dPhase = .stopped → t = d)) ∧
  (∀ e : Decoder, ∃ r : StopReason,
    (e.serialEvent .finish).serialResult = { frames := e.frames, stop := r, cursor := e.cursor, rest := e.rxbuf } ∧
    (e.dPhase = .hdr → r = .endOfBuffer) ∧ (e.dPhase = .stopped → r = e.stop) ∧
    (e.dPhase ≠ .hdr → e.dPhase ≠ .stopped → r = .truncatedFrame)) ∧
  (∀ (s : State) (rs : List ReadAnswer), s.port = [] → s.point = .read →
    (∀ (b : Byte) (bs : List Byte), s.chan.reads = .chunk (b :: bs) :: rs →
      exceeds s.rxbufCap (s.rxlen + (bs.length + 1)) = false →
      step s = .next { s with
        dec := { s.dec with rxbuf := s.dec.rxbuf ++ b :: bs }, chan := { s.chan with reads := rs }
        ser := (b :: bs).foldl (fun d x => d.serialEvent (.byte x)) s.ser }) ∧
    (s.chan.reads = .chunk [] :: rs →
      step s = .next { s with
        dec := { s.dec with cursor := 0, frames := [] }, chan := { s.chan with reads := rs }, point := .decode
        ser := s.ser.serialEvent .finish }))

/-! ## The frame rows -/

/-- A response or notification frame at CURSOR becomes one more Frame with its own type byte, the checksum byte as read and
the flag the checksum test; the working registers and CURSOR are written; nothing else changes, and the trailer plays no
part (spec/41_decode.md R124, R125; how the row is an instruction is log 13). -/
def Obligations.AcceptedFramesAreAppended : Prop :=
  ∀ (s : State) (cmd : Byte) (params : List Byte) (cs tr : Byte),
    exec (.frameResponse cmd params cs tr) s =
      .next { s with dec := { s.dec with
        dType := 0x01, dCmd := cmd, dLen := BitVec.ofNat 16 params.length, dCs := cs
        dAcc := frameChecksum 0x01 cmd params
        frames := s.dec.frames ++
          [{ type := 0x01, command := cmd, parameters := params, checksum := cs
             checksumValid := decide (frameChecksum 0x01 cmd params = cs) }]
        cursor := s.dec.cursor + params.length + 7 } } ∧
    exec (.frameNotification cmd params cs tr) s =
      .next { s with dec := { s.dec with
        dType := 0x02, dCmd := cmd, dLen := BitVec.ofNat 16 params.length, dCs := cs
        dAcc := frameChecksum 0x02 cmd params
        frames := s.dec.frames ++
          [{ type := 0x02, command := cmd, parameters := params, checksum := cs
             checksumValid := decide (frameChecksum 0x02 cmd params = cs) }]
        cursor := s.dec.cursor + params.length + 7 } }

/-- A command frame at CURSOR ends the decode loop with BadType and yields no Frame: a RECEIVE is over with the frames
before it and the rest from CURSOR on; a READTAGS goes on to its loop over the frames (spec/41_decode.md R122, R126;
spec/43_session.md R170, R174; how the row is an instruction, and what is left afterwards, are logs 9, 12, 13, 15). -/
def Obligations.CommandFramesEndTheLoop : Prop :=
  ∀ (s : State) (cmd : Byte) (params : List Byte) (cs tr : Byte),
    (s.op = some .receive →
      exec (.frameCommand cmd params cs tr) s =
        .next { s with
          session := { s.session with sBusy := false }
          enc := { s.enc with txbuf := [] }
          dec := { s.dec with rxbuf := [], cursor := 0, frames := [], stop := .endOfBuffer, dType := 0x00 }
          tags := Tags.empty, batch := [], rest := [], op := none, point := .idle, ser := Decoder.reset
          outcome := some (.received
            { frames := s.dec.frames, stop := .badType, rest := s.dec.rxbuf.drop s.dec.cursor }) }) ∧
    (s.op = some .readTags →
      exec (.frameCommand cmd params cs tr) s =
        .next { s with
          dec := { s.dec with rxbuf := [], cursor := 0, frames := [], stop := .badType, dType := 0x00 }
          tags := Tags.empty, batch := s.dec.frames, rest := s.dec.rxbuf.drop s.dec.cursor, point := .dispatch
          ser := Decoder.reset })

/-! ## Payload decoders -/

/-- INVPARSE answers the report with each field at its offset, or PayloadTooShort with the length when and only when there
are fewer than 17 bytes; bytes from offset 17 on play no part (spec/42_payload.md R150, R151). -/
def Obligations.InvParseReadsTheFields : Prop :=
  ∀ (s : State) (p : List Byte),
    (∀ h : 17 ≤ p.length,
      exec (.opInvParse p) s =
        .next { s with outcome := some (.inventory
          { signalStrength := p[0]
            protocolControl := BitVec.ofNat 16 (256 * p[1].toNat + p[2].toNat)
            identifier := [p[3], p[4], p[5], p[6], p[7], p[8], p[9], p[10], p[11], p[12], p[13], p[14]]
            crc := BitVec.ofNat 16 (256 * p[15].toNat + p[16].toNat) }) }) ∧
    (p.length < 17 →
      exec (.opInvParse p) s = .next { s with outcome := some (.error (.payloadTooShort p.length)) })

/-- ERRPARSE answers a report for every input: no code and class Unknown for an empty payload, else the first byte and its
class; later bytes play no part (spec/42_payload.md R155, R157). -/
def Obligations.ErrParseNeverFails : Prop :=
  ∀ (s : State) (b : Byte) (bs : List Byte),
    exec (.opErrParse []) s = .next { s with outcome := some (.failure { errorCode := none, cls := .unknown }) } ∧
    exec (.opErrParse (b :: bs)) s =
      .next { s with outcome := some (.failure { errorCode := some b, cls := errClass b }) }

/-- The pure operations answer in every state, change nothing but the outcome handed to the host, and answer the same
whatever the state (spec/43_session.md R186; spec/40_encode.md R103; spec/41_decode.md R128; spec/42_payload.md R150, R155). -/
def Obligations.PureOperationsDependOnNoState : Prop :=
  ∀ i : Instr,
    (∃ c p, i = .opEncode c p) ∨ (∃ b, i = .opDecode b) ∨ (∃ p, i = .opInvParse p) ∨ (∃ p, i = .opErrParse p) →
    ∃ r : OpOutcome, ∀ s : State, exec i s = .next { s with outcome := some r }

/-! ## The opcode rows -/

/-- SINGLE_POLL on a frame of READTAGS: a short payload is counted, a new identifier appends its report, a known one
changes nothing; nothing else changes (spec/43_session.md R177, R179; that the row means this dispatch is log 14). -/
def Obligations.SinglePollCollectsNewTags : Prop :=
  ∀ (s : State) (p : List Byte),
    (p.length < 17 →
      exec (.singlePoll p) s = .next { s with tags := { s.tags with shortCount := s.tags.shortCount + 1 } }) ∧
    (∀ rep : InventoryReport, inventoryReport p = .ok rep →
      ((∀ e ∈ s.tags.pool, e.identifier ≠ rep.identifier) →
        exec (.singlePoll p) s = .next { s with tags := { s.tags with pool := s.tags.pool ++ [rep] } }) ∧
      ((∃ e ∈ s.tags.pool, e.identifier = rep.identifier) → exec (.singlePoll p) s = .next s))

/-- EXEC_FAILURE on a frame of READTAGS overwrites last_error with the report of its payload, and nothing else
(spec/43_session.md R180; that the row means this dispatch is log 14). -/
def Obligations.ExecFailureOverwritesLastError : Prop :=
  ∀ (s : State) (b : Byte) (bs : List Byte),
    exec (.execFailure (b :: bs)) s =
      .next { s with tags := { s.tags with lastError := some { errorCode := some b, cls := errClass b } } } ∧
    exec (.execFailure []) s =
      .next { s with tags := { s.tags with lastError := some { errorCode := none, cls := .unknown } } }

/-- The other commands are ignored by READTAGS: nothing changes (spec/43_session.md R175; spec/42_payload.md R158; that the
row means this dispatch is log 14). -/
def Obligations.OtherCommandsPassThrough : Prop :=
  ∀ (s : State) (p : List Byte),
    exec (.getModuleInfo p) s = .next s ∧ exec (.multiPoll p) s = .next s ∧ exec (.stopMultiPoll p) s = .next s ∧
      exec (.setRxDemod p) s = .next s

/-! ## The session -/

/-- OPEN on a closed session takes the channel and the timeout, sets S_OPEN and clears S_BUSY, and touches nothing else; on
an open one it is refused (spec/43_session.md R165). -/
def Obligations.OpenTakesTheChannel : Prop :=
  ∀ (s : State) (ch t : Nat),
    (s.session.sOpen = false →
      exec (.opOpen ch t) s =
        .next { s with session := { channel := some ch, readTimeout := t, sOpen := true, sBusy := false }
                       outcome := some .opened }) ∧
    (s.session.sOpen = true → exec (.opOpen ch t) s = .refused .alreadyOpen)

/-- CLOSE ends the session in one step, without waiting, whatever the channel's `close` answers, and reports an error of it
(spec/43_session.md R185; spec/60_exceptions.md R211; how the answer reaches the block is log 3, that one not presented is a
free value log 27, that READ_TIMEOUT stays log 23). -/
def Obligations.CloseEndsTheSession : Prop :=
  ∀ s : State, s.Ready →
    (∀ (a : CloseAnswer) (cs : List CloseAnswer), s.chan.closes = a :: cs →
      exec .opClose s =
        .next { s with
          session := { s.session with channel := none, sOpen := false, sBusy := false }
          chan := { s.chan with closes := cs }
          outcome := some (if a = .ok then .ok else .error (.ioError .close)) }) ∧
    (s.chan.closes = [] →
      exec .opClose s =
        .next { s with
          session := { s.session with channel := none, sOpen := false, sBusy := false }
          chan := { s.chan with draws := s.chan.draws + 1 }
          outcome := some (if closeFails s.chan.draws = false then .ok else .error (.ioError .close)) })

/-- SEND with the whole frame accepted: exactly FRAME(0x00, cmd, params) goes on the wire by one `write`, nothing is read,
the session is idle again with TXBUF empty, and the answer is ok; only the encoder's working registers also change
(spec/43_session.md R167; how the answer reaches the block is log 3, what is left afterwards log 9). -/
def Obligations.SendWritesTheWholeFrame : Prop :=
  ∀ (s : State) (cmd : Byte) (params : List Byte) (ws : List WriteAnswer), s.Ready → params.length ≤ 65535 →
    s.chan.writes = .count (params.length + 7) :: ws →
    exec (.opSend cmd params) s =
      .next { s with
        enc := { eCmd := cmd, eLen := BitVec.ofNat 16 params.length
                 eAcc := frameChecksum TYPE_COMMAND cmd params, txbuf := [] }
        chan := { s.chan with writes := ws, wire := s.chan.wire ++ frameBytes TYPE_COMMAND cmd params }
        outcome := some .ok }

/-- SEND's three failures: too long, and nothing is written; a short write, and the accepted bytes stay on the wire; a
write error. The session stays open and is idle again (spec/43_session.md R167, R168; spec/40_encode.md R104;
how the answer reaches the block is log 3, the bytes gone before a write error log 5, S_BUSY after EncodingError log 25). -/
def Obligations.SendFailsWithoutRetry : Prop :=
  ∀ (s : State) (cmd : Byte) (params : List Byte), s.Ready →
    (65535 < params.length →
      exec (.opSend cmd params) s =
        .next { s with outcome := some (.error (.encodingError params.length)) }) ∧
    (params.length ≤ 65535 → ∀ (n : Nat) (ws : List WriteAnswer),
      (s.chan.writes = .count n :: ws → n < params.length + 7 →
        exec (.opSend cmd params) s =
          .next { s with
            enc := { eCmd := cmd, eLen := BitVec.ofNat 16 params.length
                     eAcc := frameChecksum TYPE_COMMAND cmd params, txbuf := [] }
            chan := { s.chan with
              writes := ws, wire := s.chan.wire ++ (frameBytes TYPE_COMMAND cmd params).take n }
            outcome := some (.error (.ioError (.shortWrite n))) }) ∧
      (s.chan.writes = .error n :: ws → n ≤ params.length + 7 →
        exec (.opSend cmd params) s =
          .next { s with
            enc := { eCmd := cmd, eLen := BitVec.ofNat 16 params.length
                     eAcc := frameChecksum TYPE_COMMAND cmd params, txbuf := [] }
            chan := { s.chan with
              writes := ws, wire := s.chan.wire ++ (frameBytes TYPE_COMMAND cmd params).take n }
            outcome := some (.error (.ioError .write)) }))

/-- RECEIVE whose drain ends normally: the result is DECODE of the concatenation of the chunks without its cursor, however
the bytes were cut into chunks; the answers up to the zero-count read are consumed; the session is idle, RXBUF empty; only
the decoder's working registers also change (spec/43_session.md R170, R173; how the answers reach the block is
log 3, what is left afterwards log 9). -/
def Obligations.ReceiveDecodesTheDrainedBytes : Prop :=
  ∀ (s : State) (chunks : List (List Byte)) (rs : List ReadAnswer), s.Ready → s.drains chunks →
    s.chan.reads = chunks.map .chunk ++ .chunk [] :: rs →
    ∃ (ty c acc cs : Byte) (len : U16),
      exec .opReceive s =
        .next { s with
          dec := { s.dec with dType := ty, dCmd := c, dLen := len, dAcc := acc, dCs := cs }
          chan := { s.chan with reads := rs }
          outcome := some (decodeBuffer chunks.flatten).received }

/-- RECEIVE with a read error: IOError, no frames, the bytes so far dropped undecoded, the session still open and idle
(spec/43_session.md R171; how the answers reach the block is log 3). -/
def Obligations.ReceiveDropsBytesOnAReadError : Prop :=
  ∀ (s : State) (chunks : List (List Byte)) (rs : List ReadAnswer), s.Ready → s.drains chunks →
    s.chan.reads = chunks.map .chunk ++ .error :: rs →
    exec .opReceive s =
      .next { s with chan := { s.chan with reads := rs }, outcome := some (.error (.ioError .read)) }

/-- RECEIVE with a chunk that passes RXBUF_CAP: no result, RXBUF empty, S_BUSY 0, S_OPEN unchanged, the answers read are
gone (spec/60_exceptions.md R205; spec/90_conflicts.md C11); the RECEIVE of a READTAGS likewise, which ends the READTAGS with
its multi-poll on the wire (that the run goes on, and that the whole READTAGS ends, are the model's choice, log 10). -/
def Obligations.ReceiveOverflowLeavesTheBlockIdle : Prop :=
  ∀ (s : State) (chunks : List (List Byte)) (b : Byte) (bs : List Byte) (rs : List ReadAnswer), s.Ready →
    s.drains chunks → exceeds s.rxbufCap (chunks.flatten.length + (bs.length + 1)) = true →
    s.chan.reads = chunks.map .chunk ++ .chunk (b :: bs) :: rs →
    exec .opReceive s = .next { s with chan := { s.chan with reads := rs }, outcome := some .rxOverflow } ∧
    (∀ (rounds : Nat) (ws : List WriteAnswer) (n : Byte), s.chan.writes = .count 10 :: ws →
      n = BitVec.ofNat 8 (min rounds 255) →
      exec (.opReadTags rounds) s =
        .next { s with
          enc := { eCmd := 0x27, eLen := 3, eAcc := 0x4C + n, txbuf := [] }
          chan := { s.chan with
            writes := ws, reads := rs
            wire := s.chan.wire ++ [0xAA, 0x00, 0x27, 0x00, 0x03, 0x22, 0x00, n, 0x4C + n, 0xDD] }
          outcome := some .rxOverflow })

/-- With unbounded capacity a RECEIVE is over exactly when the channel's answers hold a zero-count read or an error; else it
is still in its drain with S_BUSY = 1 (spec/43_session.md R172; how the answers reach the block is log 3). -/
def Obligations.ReceiveEndsWhenTheChannelEndsIt : Prop :=
  ∀ s t : State, s.Ready → s.rxbufCap = none → exec .opReceive s = .next t →
    (t.session.sBusy = false ↔ .error ∈ s.chan.reads ∨ .chunk [] ∈ s.chan.reads)

/-- An operation whose channel answer has not come waits at its call with S_BUSY = 1: SEND and READTAGS at `write` with the
frame in TXBUF, RECEIVE, and READTAGS once its frame is written, at `read` with the chunks so far in RXBUF
(spec/60_exceptions.md R211; spec/43_session.md R172, R174; how the model holds the answers is log 3, that the byte-serial
form has heard the chunks log 12). -/
def Obligations.OperationsWaitForTheChannel : Prop :=
  ∀ s : State, s.Ready →
    (∀ (cmd : Byte) (params : List Byte), s.chan.writes = [] → params.length ≤ 65535 →
      exec (.opSend cmd params) s =
        .next { s with
          session := { s.session with sBusy := true }, op := some .send, point := .write, outcome := none
          enc := { eCmd := cmd, eLen := BitVec.ofNat 16 params.length
                   eAcc := frameChecksum TYPE_COMMAND cmd params, txbuf := frameBytes TYPE_COMMAND cmd params } }) ∧
    (∀ chunks : List (List Byte), s.drains chunks → s.chan.reads = chunks.map .chunk →
      exec .opReceive s =
        .next { s with
          session := { s.session with sBusy := true }, op := some .receive, point := .read, outcome := none
          dec := { s.dec with rxbuf := chunks.flatten }, chan := { s.chan with reads := [] }
          ser := chunks.flatten.foldl Decoder.serialByte Decoder.reset }) ∧
    (∀ rounds : Nat, s.chan.writes = [] →
      exec (.opReadTags rounds) s =
        .next { s with
          session := { s.session with sBusy := true }, op := some .readTags, point := .write, outcome := none
          enc := { eCmd := OP_MULTI_POLL, eLen := 3, eAcc := 0x4C + BitVec.ofNat 8 (min rounds 255)
                   txbuf := frameBytes TYPE_COMMAND OP_MULTI_POLL [0x22, 0x00, BitVec.ofNat 8 (min rounds 255)] } }) ∧
    (∀ (rounds : Nat) (ws : List WriteAnswer) (chunks : List (List Byte)) (n : Byte), s.drains chunks →
      s.chan.writes = .count 10 :: ws → s.chan.reads = chunks.map .chunk → n = BitVec.ofNat 8 (min rounds 255) →
      exec (.opReadTags rounds) s =
        .next { s with
          session := { s.session with sBusy := true }, op := some .readTags, point := .read, outcome := none
          enc := { eCmd := 0x27, eLen := 3, eAcc := 0x4C + n, txbuf := [] }
          dec := { s.dec with rxbuf := chunks.flatten }
          ser := chunks.flatten.foldl Decoder.serialByte Decoder.reset
          chan := { s.chan with
            writes := ws, reads := []
            wire := s.chan.wire ++ [0xAA, 0x00, 0x27, 0x00, 0x03, 0x22, 0x00, n, 0x4C + n, 0xDD] } })

/-- The preconditions: SEND, RECEIVE, READTAGS and CLOSE are refused NotOpen without a session and Busy while one operation
is in flight, and only then; OPEN needs a closed session; the pure operations need nothing and have working state of their
own (spec/43_session.md R186; NotOpen before Busy, in states no run reaches, is log 18). -/
def Obligations.SessionPreconditions : Prop :=
  (∀ (s : State) (i : Instr),
    i = .opClose ∨ (∃ c p, i = .opSend c p) ∨ i = .opReceive ∨ (∃ r, i = .opReadTags r) →
    (s.session.sOpen = false → exec i s = .refused .notOpen) ∧
    (s.session.sOpen = true → s.session.sBusy = true → exec i s = .refused .busy) ∧
    (s.session.sOpen = true → s.session.sBusy = false → ∀ r, exec i s ≠ .refused r)) ∧
  (∀ (s : State) (ch t : Nat),
    (s.session.sOpen = true → exec (.opOpen ch t) s = .refused .alreadyOpen) ∧
    (s.session.sOpen = false → ∀ r, exec (.opOpen ch t) s ≠ .refused r)) ∧
  (∀ (s : State) (i : Instr),
    (∃ c p, i = .opEncode c p) ∨ (∃ b, i = .opDecode b) ∨ (∃ p, i = .opInvParse p) ∨ (∃ p, i = .opErrParse p) →
    ∃ r, exec i s = .next { s with outcome := some r })

/-- READTAGS with its multi-poll written whole and its drain ended: the frame sent is
`AA 00 27 00 03 22 00 n cs DD` with n = min(rounds, 255) and cs = 0x4C + n; the pool holds the reports of the 0x22 frames,
first seen and in order; last_error is the last failure frame's report; short_count counts the short 0x22 frames; no frame is
filtered by type or checksum; stop and rest are RECEIVE's (spec/43_session.md R174 to R180; how the answers reach the
block is log 3, what is left afterwards log 9). -/
def Obligations.ReadTagsCollectsTheBatch : Prop :=
  ∀ (s : State) (rounds : Nat) (ws : List WriteAnswer) (chunks : List (List Byte)) (rs : List ReadAnswer),
    s.Ready → s.drains chunks → s.chan.writes = .count 10 :: ws →
    s.chan.reads = chunks.map .chunk ++ .chunk [] :: rs →
    ∀ (n : Byte) (r : DecodeResult), n = BitVec.ofNat 8 (min rounds 255) → r = decodeBuffer chunks.flatten →
      ∃ (ty c acc cs : Byte) (len : U16),
        exec (.opReadTags rounds) s =
          .next { s with
            enc := { eCmd := 0x27, eLen := 3, eAcc := 0x4C + n, txbuf := [] }
            dec := { s.dec with dType := ty, dCmd := c, dLen := len, dAcc := acc, dCs := cs }
            chan := { s.chan with
              writes := ws, reads := rs
              wire := s.chan.wire ++ [0xAA, 0x00, 0x27, 0x00, 0x03, 0x22, 0x00, n, 0x4C + n, 0xDD] }
            outcome := some (.tags
              { pool := firstSeen (inventoryReports r.frames), lastError := lastFailure r.frames
                shortCount := shortReports r.frames, stop := r.stop, rest := r.rest }) }

/-- READTAGS's channel errors: a failed or short write returns that error and no `read` is issued; a failed read returns
that error and no pool; EncodingError cannot occur (spec/43_session.md R181; how the answers reach the block is log 3). -/
def Obligations.ReadTagsReturnsChannelErrors : Prop :=
  (∀ (s : State) (rounds n : Nat) (ws : List WriteAnswer) (e : Encoder) (frame : List Byte), s.Ready →
    e = { eCmd := OP_MULTI_POLL, eLen := 3, eAcc := 0x4C + BitVec.ofNat 8 (min rounds 255), txbuf := [] } →
    frame = frameBytes TYPE_COMMAND OP_MULTI_POLL [0x22, 0x00, BitVec.ofNat 8 (min rounds 255)] →
    (s.chan.writes = .count n :: ws → n < 10 →
      exec (.opReadTags rounds) s =
        .next { s with enc := e, chan := { s.chan with writes := ws, wire := s.chan.wire ++ frame.take n }
                       outcome := some (.error (.ioError (.shortWrite n))) }) ∧
    (s.chan.writes = .error n :: ws → n ≤ 10 →
      exec (.opReadTags rounds) s =
        .next { s with enc := e, chan := { s.chan with writes := ws, wire := s.chan.wire ++ frame.take n }
                       outcome := some (.error (.ioError .write)) }) ∧
    (∀ (chunks : List (List Byte)) (rs : List ReadAnswer), s.drains chunks → s.chan.writes = .count 10 :: ws →
      s.chan.reads = chunks.map .chunk ++ .error :: rs →
      exec (.opReadTags rounds) s =
        .next { s with enc := e, chan := { s.chan with writes := ws, reads := rs, wire := s.chan.wire ++ frame }
                       outcome := some (.error (.ioError .read)) })) ∧
  (∀ (s t : State) (rounds n : Nat), exec (.opReadTags rounds) s = .next t →
    t.outcome ≠ some (.error (.encodingError n)))

/-! ## Encoding -/

/-- Decoding what an instruction is encoded as gives it back, with every operand (all eighteen rows). -/
def Obligations.DecodeUndoesEncode : Prop :=
  ∀ i : Instr, i.wf = true → decode (encode i) = .ok i

/-- The frame decoder accepts exactly the byte sequences that begin with a frame's bytes, and reads that frame, whatever
follows (spec/30_encoding.md R70, R71, R74). -/
def Obligations.FrameDecoderReadsWholeFrames : Prop :=
  ∀ (bytes : List Byte) (w : WireFrame),
    decodeFrame bytes = .ok w ↔ ∃ more : List Byte, bytes = w.bytes ++ more ∧ w.parameters.length ≤ 65535

/-- Words written out from the spec's encodings decode to what they stand for: the frames of S1, S3 and V22 of
spec/95_test_vectors.md, the notification frame of spec/41_decode.md R128's worked example, two OPSEL codes and two commands of spec/30_encoding.md R78, R90. -/
def Obligations.SampleWordsDecode : Prop :=
  decode (.frame [0xAA, 0x00, 0x22, 0x00, 0x00, 0x22, 0xDD]) = .ok (.frameCommand 0x22 [] 0x22 0xDD) ∧
  decode (.frame [0xAA, 0x01, 0x22, 0x00, 0x00, 0x23, 0xDD]) = .ok (.frameResponse 0x22 [] 0x23 0xDD) ∧
  decode (.frame [0xAA, 0x01, 0xFF, 0x00, 0x01, 0x15, 0x16, 0xDD]) = .ok (.frameResponse 0xFF [0x15] 0x16 0xDD) ∧
  decode (.frame [0xAA, 0x02, 0x03, 0x00, 0x01, 0x07, 0x0D, 0xDD]) = .ok (.frameNotification 0x03 [0x07] 0x0D 0xDD) ∧
  decode (.command 0x22 [0x01]) = .ok (.singlePoll [0x01]) ∧
  decode (.command 0xFF [0x15]) = .ok (.execFailure [0x15]) ∧
  decode (.request { opsel := 5 }) = .ok .opReceive ∧
  decode (.request { opsel := 8, rounds := 10 }) = .ok (.opReadTags 10) ∧
  decode (.request { opsel := 9 }) = .error (.badOpsel 9)

/-- The decoder and the opcode table agree: a code that decodes hits exactly the row of its instruction, a command or a
request that does not hits none (spec/30_encoding.md R85, R87, R90). -/
def Obligations.DecodingAgreesWithTheTable : Prop :=
  (∀ (k : Code) (i : Instr), decode k = .ok i → k.rows = [i.mnemonic]) ∧
  (∀ (opcode : Byte) (p : List Byte) (r : Reject), decode (.command opcode p) = .error r → (Code.command opcode p).rows = []) ∧
  (∀ (q : Request) (r : Reject), decode (.request q) = .error r → (Code.request q).rows = [])

/-! ## The step -/

/-- A step runs the instruction it fetches: a request at the head of the port, which it takes; with none presented, the
frame at CURSOR in the decode loop, which takes itself (spec/41_decode.md R125); the next frame's command in READTAGS's
loop, which it takes. An OPSEL that selects nothing is refused (spec/30_encoding.md R90). The order of the three sources is the
model's choice (logs 1, 13). -/
def Obligations.StepRunsTheFetchedInstruction : Prop :=
  (∀ (s : State) (q : Request) (qs : List Request) (i : Instr), s.port = q :: qs → decode (.request q) = .ok i →
    step s = exec i { s with port := qs }) ∧
  (∀ (s : State) (i : Instr), s.port = [] → s.point = .decode →
    decode (.frame (s.dec.rxbuf.drop s.dec.cursor)) = .ok i → step s = exec i s) ∧
  (∀ (s : State) (f : Frame) (fs : List Frame) (i : Instr), s.port = [] → s.point = .dispatch → s.batch = f :: fs →
    decode (.command f.command f.parameters) = .ok i → step s = exec i { s with batch := fs }) ∧
  (∀ (s : State) (q : Request) (qs : List Request), s.port = q :: qs → 9 ≤ q.opsel.toNat →
    step s = .refused .badOpsel)

/-- One pass of the loops at a time gives what the operation gives at once: from RECEIVE at its first `read`, and from
READTAGS at its `write`, some number of steps reaches exactly what `exec` answers (that a session operation is one step
when its answers are there is spec/92_eei_decisions.md D1; that its passes are steps too is the model's choice, log 13). -/
def Obligations.SmallStepsReachTheOperationsResult : Prop :=
  (∀ s : State, s.port = [] → s.sessionRefusal = none →
    ∃ n : Nat, core.run n s.startReceive = exec .opReceive s) ∧
  (∀ (s : State) (rounds : Nat), s.port = [] → s.sessionRefusal = none →
    ∃ n : Nat, core.run n (s.startReadTags rounds) = exec (.opReadTags rounds) s)

/-- The working registers are unobservable: two states that differ in the session's alone step alike, to next states that
differ in them alone (spec/10_state.md R39). -/
def Obligations.WorkingRegistersAreUnobservable : Prop :=
  ∀ s t : State, s.eraseWork = t.eraseWork →
    andThen (step s) State.eraseWork = andThen (step t) State.eraseWork

/-- A step faults only when the channel's next answer to `write` counts more bytes than the frame being written has: the one
in TXBUF at a `write`, or that of the SEND or READTAGS request taken (spec/43_session.md R166; the fault is log 4). -/
def Obligations.FaultsOnlyOutsideTheChannelContract : Prop :=
  ∀ (s : State) (f : Fault), step s = .fault f →
    f = .channelContract ∧
      ∃ (frame : List Byte) (n : Nat) (ws : List WriteAnswer), frame.length < n ∧
        (s.chan.writes = .count n :: ws ∨ s.chan.writes = .error n :: ws) ∧
        ((s.port = [] ∧ s.point = .write ∧ frame = s.enc.txbuf) ∨
         (∃ (q : Request) (qs : List Request), s.port = q :: qs ∧ s.sessionRefusal = none ∧
           ((q.opsel.toNat = 4 ∧ q.bytes.length ≤ 65535 ∧ frame = frameBytes TYPE_COMMAND q.cmd q.bytes) ∨
            (q.opsel.toNat = 8 ∧
              frame = frameBytes TYPE_COMMAND OP_MULTI_POLL [0x22, 0x00, BitVec.ofNat 8 (min q.rounds 255)]))))

/-- A step is refused only for the request at the head of the port, for its reason: an OPSEL of 9 to 15; OPEN on an open
session; a session operation without a session, or with one in flight (spec/60_exceptions.md R205; when a
request is taken is log 1, NotOpen before Busy log 18). -/
def Obligations.RefusalsHaveTheirReasons : Prop :=
  ∀ (s : State) (r : Refusal), step s = .refused r →
    ∃ (q : Request) (qs : List Request), s.port = q :: qs ∧
      ((r = .badOpsel ∧ 9 ≤ q.opsel.toNat) ∨
       (r = .alreadyOpen ∧ q.opsel.toNat = 0 ∧ s.session.sOpen = true) ∨
       (q.opsel.toNat ∈ [1, 4, 5, 8] ∧
         ((r = .notOpen ∧ s.session.sOpen = false) ∨
          (r = .busy ∧ s.session.sOpen = true ∧ s.session.sBusy = true))))

/-- Only OPEN and CLOSE change the channel, READ_TIMEOUT or S_OPEN; nothing changes RXBUF_CAP (spec/10_state.md R26, R34;
spec/60_exceptions.md R201; that RXBUF_CAP is a field of State is log 6). -/
def Obligations.OnlyOpenAndCloseChangeTheSession : Prop :=
  ∀ s t : State, step s = .next t →
    t.rxbufCap = s.rxbufCap ∧
    ((t.session.channel = s.session.channel ∧ t.session.readTimeout = s.session.readTimeout ∧
        t.session.sOpen = s.session.sOpen) ∨
     (∃ (q : Request) (qs : List Request), s.port = q :: qs ∧ (q.opsel.toNat = 0 ∨ q.opsel.toNat = 1)))

/-- Whatever a step puts on the wire is a frame of type command, or the part of one that the channel accepted; nothing is
taken back (spec/40_encode.md R108). -/
def Obligations.OnlyCommandFramesReachTheWire : Prop :=
  ∀ s t : State, s.Inv → step s = .next t →
    ∃ (cmd : Byte) (params : List Byte) (k : Nat), params.length ≤ 65535 ∧
      t.chan.wire = s.chan.wire ++ (frameBytes TYPE_COMMAND cmd params).take k

/-- The numeric codes of the stop reasons and errors, ERR 4 for a device failure that READTAGS reports, ERR 0 for every other
result, none for the refusal RxOverflow (spec/10_state.md R25; spec/60_exceptions.md R190). -/
def Obligations.StatusCodes : Prop :=
  stopCode .endOfBuffer = 0 ∧ stopCode .badHeader = 1 ∧ stopCode .badType = 2 ∧ stopCode .truncatedFrame = 3 ∧
  (∀ n : Nat, errorCode (.encodingError n) = 1) ∧ (∀ c : IoCause, errorCode (.ioError c) = 2) ∧
  (∀ n : Nat, errorCode (.payloadTooShort n) = 3) ∧ (∀ e : OpError, (OpOutcome.error e).errStatus = some (errorCode e)) ∧
  (∀ r : TagsResult, (OpOutcome.tags r).errStatus = some (if r.lastError = none then 0 else 4)) ∧
  OpOutcome.rxOverflow.errStatus = none ∧
  (∀ o : OpOutcome, o ≠ .rxOverflow → (∀ e, o ≠ .error e) → (∀ r, o ≠ .tags r) → o.errStatus = some 0)

end
end

