-- ==== Sys2Proof/Laws/Bytes.lean ====
section
/-! SUPPORT. Byte order: splitting a 16-bit value and assembling it (spec/00_scope.md R9). -/

namespace Sys2Proof

open Config

theorem u16be_toNat (h l : Byte) : (u16be h l).toNat = 256 * h.toNat + l.toNat := by
  have := h.isLt; have := l.isLt
  simp only [u16be, BitVec.toNat_ofNat]; omega

@[simp] theorem hi8_toNat (n : Nat) : (hi8 n).toNat = n / 256 % 256 := by simp [hi8]

@[simp] theorem lo8_toNat (n : Nat) : (lo8 n).toNat = n % 256 := by simp [lo8]

theorem u16be_hi8_lo8 (n : Nat) (h : n ≤ MAX_PARAM_LEN) : (u16be (hi8 n) (lo8 n)).toNat = n := by
  rw [u16be_toNat, hi8_toNat, lo8_toNat]; simp only [MAX_PARAM_LEN] at h; omega

theorem hi8_u16be (h l : Byte) : hi8 (u16be h l).toNat = h := by
  have := h.isLt; have := l.isLt
  apply BitVec.eq_of_toNat_eq
  rw [hi8_toNat, u16be_toNat]; omega

theorem lo8_u16be (h l : Byte) : lo8 (u16be h l).toNat = l := by
  have := h.isLt; have := l.isLt
  apply BitVec.eq_of_toNat_eq
  rw [lo8_toNat, u16be_toNat]; omega

theorem u16be_le (h l : Byte) : (u16be h l).toNat ≤ MAX_PARAM_LEN := by
  have := (u16be h l).isLt; simp only [MAX_PARAM_LEN]; omega

end Sys2Proof
end

