-- ==== Sys2Proof/Laws/Checksum.lean ====
section
/-! SUPPORT. CSUM as a fold of additions on bytes (spec/40_encode.md R100), and the length of a frame. -/

namespace Sys2Proof.Machine

open Config

@[simp] theorem csum_nil : csum [] = 0 := rfl

@[simp] theorem csum_cons (b : Byte) (s : List Byte) : csum (b :: s) = b + csum s := by
  apply BitVec.eq_of_toNat_eq
  simp only [csum, List.map_cons, List.sum_cons, BitVec.toNat_ofNat, BitVec.toNat_add]
  omega

theorem csum_append (s t : List Byte) : csum (s ++ t) = csum s + csum t := by
  induction s with
  | nil => simp
  | cons b s ih => simp [ih, BitVec.add_assoc]

theorem frameChecksum_eq (t c : Byte) (p : List Byte) :
    frameChecksum t c p = t + (c + (hi8 p.length + (lo8 p.length + csum p))) := by
  simp [frameChecksum, coveredBytes]

@[simp] theorem frameBytes_length (t c : Byte) (p : List Byte) : (frameBytes t c p).length = p.length + 7 := by
  simp [frameBytes]

end Sys2Proof.Machine
end

