-- ==== Sys2Proof/Laws/Decode.lean ====
section
/-! SUPPORT. What the frame decoder answers (spec/41_decode.md R120 to R123). -/

namespace Sys2Proof

open Config

@[simp] theorem FrameType.ofByte_code (t : FrameType) : FrameType.ofByte t.code = some t := by cases t <;> rfl

theorem FrameType.ofByte_eq_some {b : Byte} {t : FrameType} (h : FrameType.ofByte b = some t) : b = t.code := by
  unfold FrameType.ofByte at h
  split at h
  · cases h; assumption
  · split at h
    · cases h; assumption
    · split at h
      · cases h; assumption
      · cases h

theorem FrameType.ofByte_eq_none {b : Byte} (h : FrameType.ofByte b = none) : b ≠ 0x01 ∧ b ≠ 0x02 := by
  unfold FrameType.ofByte at h
  split at h
  · cases h
  · split at h
    · cases h
    · split at h
      · cases h
      · exact ⟨by assumption, by assumption⟩

/-- A body is taken exactly when the bytes are a body's bytes and more. -/
theorem takeBody_eq_some {bs : List Byte} {c : Byte} {p : List Byte} {cs tr : Byte} :
    takeBody bs = some (c, p, cs, tr) ↔
      p.length ≤ MAX_PARAM_LEN ∧
        ∃ more, bs = [c, hi8 p.length, lo8 p.length] ++ p ++ [cs, tr] ++ more := by
  constructor
  · intro h
    unfold takeBody at h
    split at h
    · rename_i c0 hi lo body
      split at h
      · rename_i cs0 tr0 more hd
        simp only [Option.some.injEq, Prod.mk.injEq] at h
        obtain ⟨rfl, rfl, rfl, rfl⟩ := h
        have hlen : (u16be hi lo).toNat ≤ body.length := by
          by_contra hc
          rw [List.drop_eq_nil_of_le (by omega)] at hd; cases hd
        have hp : (body.take (u16be hi lo).toNat).length = (u16be hi lo).toNat := by simp [hlen]
        refine ⟨by rw [hp]; exact u16be_le hi lo, more, ?_⟩
        rw [hp, hi8_u16be, lo8_u16be]
        conv_lhs => rw [← List.take_append_drop (u16be hi lo).toNat body, hd]
        simp
      · cases h
    · cases h
  · rintro ⟨hp, more, rfl⟩
    simp [takeBody, u16be_hi8_lo8 _ hp]

theorem takeBody_eq_none {bs : List Byte} (h : takeBody bs = none) :
    bs.length < 3 ∨ ∃ c hi lo body, bs = c :: hi :: lo :: body ∧ body.length < (u16be hi lo).toNat + 2 := by
  unfold takeBody at h
  split at h
  · rename_i c hi lo body
    right; refine ⟨c, hi, lo, body, rfl, ?_⟩
    split at h
    · cases h
    · rename_i hd
      by_contra hc
      match hdd : body.drop (u16be hi lo).toNat with
      | cs :: tr :: more => exact hd cs tr more hdd
      | [x] => have := congrArg List.length hdd; simp at this; omega
      | [] => have := congrArg List.length hdd; simp at this; omega
  · rename_i hne
    left
    match bs, hne with
    | [], _ => simp
    | [_], _ => simp
    | [_, _], _ => simp
    | c :: hi :: lo :: body, hne => exact absurd rfl (hne c hi lo body)

/-- Everything the frame decoder can answer. -/
theorem decodeFrame_cases (bs : List Byte) :
    (bs = [] ∧ decodeFrame bs = .error .endOfBuffer) ∨
    (∃ h t, bs = h :: t ∧ h ≠ HDR ∧ decodeFrame bs = .error .badHeader) ∨
    (bs = [HDR] ∧ decodeFrame bs = .error .truncatedFrame) ∨
    (∃ t more, bs = HDR :: t :: more ∧ t ≠ 0x01 ∧ t ≠ 0x02 ∧
      (decodeFrame bs = .error .badType ∨
        ∃ c p cs tr, decodeFrame bs = .ok ⟨.command, c, p, cs, tr⟩ ∧ takeBody more = some (c, p, cs, tr))) ∨
    (∃ ty more, bs = HDR :: FrameType.code ty :: more ∧ (ty = .response ∨ ty = .notification) ∧
      takeBody more = none ∧ decodeFrame bs = .error .truncatedFrame) ∨
    (∃ ty more c p cs tr, bs = HDR :: FrameType.code ty :: more ∧ (ty = .response ∨ ty = .notification) ∧
      takeBody more = some (c, p, cs, tr) ∧ decodeFrame bs = .ok ⟨ty, c, p, cs, tr⟩) := by
  match bs with
  | [] => exact .inl ⟨rfl, rfl⟩
  | h :: rest =>
    by_cases hh : h = HDR
    · subst hh
      match rest with
      | [] => exact .inr (.inr (.inl ⟨rfl, by simp [decodeFrame]⟩))
      | t :: more =>
        match ht : FrameType.ofByte t with
        | none =>
          have := FrameType.ofByte_eq_none ht
          exact .inr (.inr (.inr (.inl ⟨t, more, rfl, this.1, this.2, .inl (by simp [decodeFrame, ht])⟩)))
        | some ty =>
          have hc := FrameType.ofByte_eq_some ht
          subst hc
          match hb : takeBody more with
          | none =>
            cases ty with
            | command =>
              exact .inr (.inr (.inr (.inl ⟨_, more, rfl, by decide, by decide, .inl (by simp [decodeFrame, hb])⟩)))
            | response =>
              exact .inr (.inr (.inr (.inr (.inl ⟨_, more, rfl, .inl rfl, hb, by simp [decodeFrame, hb]⟩))))
            | notification =>
              exact .inr (.inr (.inr (.inr (.inl ⟨_, more, rfl, .inr rfl, hb, by simp [decodeFrame, hb]⟩))))
          | some (c, p, cs, tr) =>
            cases ty with
            | command =>
              exact .inr (.inr (.inr (.inl ⟨_, more, rfl, by decide, by decide,
                .inr ⟨c, p, cs, tr, by simp [decodeFrame, hb], hb⟩⟩)))
            | response =>
              exact .inr (.inr (.inr (.inr (.inr ⟨_, more, c, p, cs, tr, rfl, .inl rfl, hb, by simp [decodeFrame, hb]⟩))))
            | notification =>
              exact .inr (.inr (.inr (.inr (.inr ⟨_, more, c, p, cs, tr, rfl, .inr rfl, hb, by simp [decodeFrame, hb]⟩))))
    · exact .inr (.inl ⟨h, rest, rfl, hh, by simp only [decodeFrame, if_neg hh]⟩)

end Sys2Proof
end

