-- ==== Sys2Proof/Laws/Decoder.lean ====
section
/-! SUPPORT. What one iteration of the decode loop, the loop and DECODE leave (spec/41_decode.md R126, R128), in terms of a
parse of plain bytes that reads no working register. -/

namespace Sys2Proof.Machine

open Config

@[simp] theorem Decoder.latch_rxbuf (d : Decoder) : d.latch.rxbuf = d.rxbuf := by
  unfold Decoder.latch; repeat' split
  all_goals rfl
@[simp] theorem Decoder.latch_cursor (d : Decoder) : d.latch.cursor = d.cursor := by
  unfold Decoder.latch; repeat' split
  all_goals rfl
@[simp] theorem Decoder.latch_frames (d : Decoder) : d.latch.frames = d.frames := by
  unfold Decoder.latch; repeat' split
  all_goals rfl
@[simp] theorem Decoder.latch_stop (d : Decoder) : d.latch.stop = d.stop := by
  unfold Decoder.latch; repeat' split
  all_goals rfl
@[simp] theorem Decoder.latch_dCnt (d : Decoder) : d.latch.dCnt = d.dCnt := by
  unfold Decoder.latch; repeat' split
  all_goals rfl
@[simp] theorem Decoder.latch_dPhase (d : Decoder) : d.latch.dPhase = d.dPhase := by
  unfold Decoder.latch; repeat' split
  all_goals rfl
@[simp] theorem Decoder.latch_pbuf (d : Decoder) : d.latch.pbuf = d.pbuf := by
  unfold Decoder.latch; repeat' split
  all_goals rfl
@[simp] theorem Decoder.latch_remaining (d : Decoder) : d.latch.remaining = d.remaining := by
  simp [Decoder.remaining]

/-- Everything DECODE1 can do: stop, with the registers latched, or accept a response or notification. -/
theorem Decoder.decode1_cases (d : Decoder) :
    (∃ r, d.decode1 = (d.latch, some r) ∧
        (decodeFrame d.remaining = .error r ∨
          r = .badType ∧ ∃ w, decodeFrame d.remaining = .ok w ∧ w.type = .command)) ∨
      ∃ w, d.decode1 = (d.accept w, none) ∧ decodeFrame d.remaining = .ok w ∧
        (w.type = .response ∨ w.type = .notification) := by
  unfold Decoder.decode1
  match hd : decodeFrame d.remaining with
  | .error r => exact .inl ⟨r, by simp, .inl rfl⟩
  | .ok w =>
    match ht : w.type with
    | .command => exact .inl ⟨.badType, by simp [ht], .inr ⟨rfl, w, rfl, ht⟩⟩
    | .response => exact .inr ⟨w, by simp [ht], rfl, .inl ht⟩
    | .notification => exact .inr ⟨w, by simp [ht], rfl, .inr ht⟩

/-- The decode loop over plain bytes: the frames it takes and why it stops. -/
def parse : Nat → List Byte → List WireFrame × StopReason
  | 0, _ => ([], .endOfBuffer)
  | n + 1, bs =>
    match decodeFrame bs with
    | .error r => ([], r)
    | .ok w =>
      if w.type = .command then ([], .badType)
      else (w :: (parse n (bs.drop (w.parameters.length + 7))).1, (parse n (bs.drop (w.parameters.length + 7))).2)

/-- The bytes some frames take up. -/
def extentLength (ws : List WireFrame) : Nat := (ws.map fun w => w.parameters.length + 7).sum

@[simp] theorem extentLength_nil : extentLength [] = 0 := rfl
@[simp] theorem extentLength_cons (w : WireFrame) (ws : List WireFrame) :
    extentLength (w :: ws) = w.parameters.length + 7 + extentLength ws := by simp [extentLength]

@[simp] theorem Decoder.accept_rxbuf (w : WireFrame) (d : Decoder) : (d.accept w).rxbuf = d.rxbuf := rfl
@[simp] theorem Decoder.accept_frames (w : WireFrame) (d : Decoder) :
    (d.accept w).frames = d.frames ++ [frameOf w] := rfl
@[simp] theorem Decoder.accept_cursor (w : WireFrame) (d : Decoder) :
    (d.accept w).cursor = d.cursor + w.parameters.length + 7 := rfl
@[simp] theorem Decoder.accept_stop (w : WireFrame) (d : Decoder) : (d.accept w).stop = d.stop := rfl
@[simp] theorem Decoder.accept_dCnt (w : WireFrame) (d : Decoder) : (d.accept w).dCnt = d.dCnt := rfl
@[simp] theorem Decoder.accept_dPhase (w : WireFrame) (d : Decoder) : (d.accept w).dPhase = d.dPhase := rfl
@[simp] theorem Decoder.accept_pbuf (w : WireFrame) (d : Decoder) : (d.accept w).pbuf = d.pbuf := rfl
@[simp] theorem Decoder.accept_remaining (w : WireFrame) (d : Decoder) :
    (d.accept w).remaining = d.remaining.drop (w.parameters.length + 7) := by
  simp [Decoder.remaining, Nat.add_assoc]

/-- What the decode loop leaves, in terms of `parse`: it never reads its working registers. -/
theorem Decoder.loop_eq (n : Nat) (d : Decoder) :
    (d.loop n).2 = (parse n d.remaining).2 ∧
      (d.loop n).1.frames = d.frames ++ (parse n d.remaining).1.map frameOf ∧
      (d.loop n).1.cursor = d.cursor + extentLength (parse n d.remaining).1 ∧
      (d.loop n).1.rxbuf = d.rxbuf ∧ (d.loop n).1.stop = d.stop ∧ (d.loop n).1.dCnt = d.dCnt ∧
      (d.loop n).1.dPhase = d.dPhase ∧ (d.loop n).1.pbuf = d.pbuf := by
  induction n generalizing d with
  | zero => simp [Decoder.loop, parse]
  | succ n ih =>
    rcases d.decode1_cases with ⟨r, h1, hr⟩ | ⟨w, h1, hw, ht⟩
    · rcases hr with hr | ⟨rfl, w, hw, ht⟩
      · simp [Decoder.loop, parse, h1, hr]
      · simp [Decoder.loop, parse, h1, hw, ht]
    · have hc : w.type ≠ .command := by rcases ht with h | h <;> simp [h]
      have := ih (d.accept w)
      simp only [Decoder.accept_remaining] at this
      simp [Decoder.loop, parse, h1, hw, hc, this, Nat.add_assoc, Nat.add_comm, Nat.add_left_comm]

/-- DECODE's result in terms of `parse`. -/
theorem decodeBuffer_eq (buf : List Byte) :
    decodeBuffer buf =
      { frames := (parse buf.length buf).1.map frameOf, stop := (parse buf.length buf).2
        cursor := extentLength (parse buf.length buf).1
        rest := buf.drop (extentLength (parse buf.length buf).1) } := by
  have hr : (Decoder.ofBuffer buf).remaining = buf := rfl
  obtain ⟨h1, h2, h3, h4, -⟩ := Decoder.loop_eq buf.length (Decoder.ofBuffer buf)
  rw [hr] at h1 h2 h3
  have hc : (Decoder.ofBuffer buf).cursor = 0 := rfl
  have hf : (Decoder.ofBuffer buf).frames = [] := rfl
  have hx : (Decoder.ofBuffer buf).rxbuf = buf := rfl
  rw [hc, Nat.zero_add] at h3
  rw [hf, List.nil_append] at h2
  simp only [decodeBuffer, Decoder.run, hr]
  simp only [Decoder.result, Decoder.remaining, h1, h2, h3, h4, hx]

end Sys2Proof.Machine
end

