-- ==== Sys2Proof/Laws/Encoder.lean ====
section
/-! SUPPORT. What ENCODE leaves in the encoder (spec/40_encode.md R103, R104). -/

namespace Sys2Proof.Machine

open Config

theorem foldl_emitSum (p : List Byte) (e : Encoder) :
    p.foldl (fun e b => e.emitSum b) e = { e with eAcc := e.eAcc + csum p, txbuf := e.txbuf ++ p } := by
  induction p generalizing e with
  | nil => simp
  | cons b p ih =>
    simp only [List.foldl_cons, ih]
    simp [Encoder.emitSum, Encoder.emit, BitVec.add_assoc]

/-- The encoder after ENCODE (spec/40_encode.md R103). -/
theorem Encoder.emitFrame_eq (cmd : Byte) (params : List Byte) (e : Encoder) :
    e.emitFrame cmd params =
      { eCmd := cmd, eLen := BitVec.ofNat 16 params.length, eAcc := frameChecksum TYPE_COMMAND cmd params
        txbuf := frameBytes TYPE_COMMAND cmd params } := by
  simp only [Encoder.emitFrame, foldl_emitSum]
  simp [Encoder.emitSum, Encoder.emit, frameBytes, frameChecksum_eq, BitVec.add_assoc]

theorem Encoder.encode_ok {cmd : Byte} {params : List Byte} (e : Encoder) (h : params.length ≤ MAX_PARAM_LEN) :
    e.encode cmd params = .ok (e.emitFrame cmd params) := by
  simp only [Encoder.encode, if_neg (Nat.not_lt.2 h), gt_iff_lt]

theorem Encoder.encode_error {cmd : Byte} {params : List Byte} (e : Encoder) (h : MAX_PARAM_LEN < params.length) :
    e.encode cmd params = .error (.encodingError params.length) := by
  simp only [Encoder.encode, if_pos h, gt_iff_lt]

end Sys2Proof.Machine
end

