-- ==== Sys2Proof/Laws/Memory.lean ====
section
/-! SUPPORT. The byte spaces as cells: every space a State can hold is in the one form, appending and dropping keep it,
and equal cells are equal spaces (spec/20_memory.md R50, R55). -/

namespace Sys2Proof.Machine

@[simp] theorem Memory.cells_length (a : Nat) (bs : List Byte) : (Memory.cells a bs).length = bs.length := by
  induction bs generalizing a with
  | nil => rfl
  | cons b bs ih => simp [Memory.cells, ih]

theorem Memory.cells_offsets (a : Nat) (bs : List Byte) :
    (Memory.cells a bs).map Prod.fst = List.range' a bs.length := by
  induction bs generalizing a with
  | nil => rfl
  | cons b bs ih => simp [Memory.cells, ih, List.range'_succ]

theorem Memory.cells_bytes (a : Nat) (bs : List Byte) : (Memory.cells a bs).map Prod.snd = bs := by
  induction bs generalizing a with
  | nil => rfl
  | cons b bs ih => simp [Memory.cells, ih]

/-- Whatever bytes an operation leaves in a space, its cells are in the one form. -/
theorem Memory.cells_wf (bs : List Byte) : Memory.wf (Memory.cells 0 bs) = true := by
  simp [Memory.wf, Memory.cells_offsets, List.range_eq_range']

/-- Equal cells are equal spaces. -/
theorem Memory.cells_injective {bs cs : List Byte} (h : Memory.cells 0 bs = Memory.cells 0 cs) : bs = cs := by
  rw [← Memory.cells_bytes 0 bs, h, Memory.cells_bytes]

/-- Appending to a space lists the new bytes from its length on (R56). -/
theorem Memory.cells_append (a : Nat) (bs cs : List Byte) :
    Memory.cells a (bs ++ cs) = Memory.cells a bs ++ Memory.cells (a + bs.length) cs := by
  induction bs generalizing a with
  | nil => simp [Memory.cells]
  | cons b bs ih => simp [Memory.cells, ih, Nat.add_assoc, Nat.add_comm 1]

/-- Nothing is listed after reset. -/
theorem Memory.cells_reset :
    Memory.cells 0 State.reset.dec.rxbuf = [] ∧ Memory.cells 0 State.reset.enc.txbuf = [] := ⟨rfl, rfl⟩

end Sys2Proof.Machine
end

