-- ==== Sys2Proof/Laws/PerInstr.lean ====
section
/-! SUPPORT. Statements for all instructions, made per constructor. -/

namespace Sys2Proof.Laws

open Sys2Proof.Config

/-- What an instruction is encoded as hits exactly its own row of the opcode table (spec/30_encoding.md R87, R90). -/
def EncodesRow.Statement (i : Instr) : Prop := (encode i).rows = [i.mnemonic]

/-- The two bytes that the frame rows fix, out of the forty bits of a frame's first five bytes. -/
theorem and_frame_mask (t : Byte) (x : Nat) (hx : x < 2 ^ 24) :
    (0xAA * 2 ^ 32 + t.toNat * 2 ^ 24 + x) &&& 0xFFFF000000 = 0xAA * 2 ^ 32 + t.toNat * 2 ^ 24 := by
  have ht := t.isLt
  have low : ∀ m : Nat, x &&& m <<< 24 = 0 := by
    intro m
    apply Nat.eq_of_testBit_eq
    intro i
    simp only [Nat.testBit_and, Nat.testBit_shiftLeft, Nat.zero_testBit]
    by_cases hi : 24 ≤ i
    · rw [Nat.testBit_lt_two_pow (lt_of_lt_of_le hx (Nat.pow_le_pow_right (by norm_num) hi))]; rfl
    · simp [hi]
  have high : (0xAA * 2 ^ 8 + t.toNat) &&& 0xFFFF = 0xAA * 2 ^ 8 + t.toNat :=
    Nat.and_two_pow_sub_one_of_lt_two_pow (n := 16) (by omega)
  have split : 0xAA * 2 ^ 32 + t.toNat * 2 ^ 24 + x = (0xAA * 2 ^ 8 + t.toNat) <<< 24 + x := by
    rw [Nat.shiftLeft_eq]; ring
  have mask : (0xFFFF000000 : Nat) = 0xFFFF <<< 24 := by decide
  rw [split, mask, Nat.shiftLeft_add_eq_or_of_lt hx, Nat.and_or_distrib_right, ← Nat.shiftLeft_and_distrib, high,
    low 0xFFFF, Nat.or_zero, Nat.shiftLeft_eq]
  ring

/-- A frame's bytes hit the row of its type. -/
theorem frame_rows (w : WireFrame) : (Code.frame w.bytes).rows = [w.toInstr.mnemonic] := by
  obtain ⟨ty, c, p, cs, tr⟩ := w
  have hc := c.isLt
  have hh := (hi8 p.length).isLt
  have hl := (lo8 p.length).isLt
  have k := and_frame_mask ty.code
    (c.toNat * 2 ^ 16 + (hi8 p.length).toNat * 2 ^ 8 + (lo8 p.length).toNat) (by omega)
  rw [← Nat.add_assoc, ← Nat.add_assoc] at k
  have hk : ∀ n, n &&& 0xFFFF000000 = 0xAA * 2 ^ 32 + ty.code.toNat * 2 ^ 24 →
      (frameRows.filter (·.hits n)).map (·.mnemonic) = [(WireFrame.toInstr ⟨ty, c, p, cs, tr⟩).mnemonic] := by
    intro n hn
    cases ty <;> norm_num [FrameType.code] at hn <;> simp only [frameRows, List.filter_cons, Row.hits, hn] <;> rfl
  exact hk _ k

theorem EncodesRow.frameCommand (cmd : Byte) (params : List Byte) (cs tr : Byte) :
    EncodesRow.Statement (.frameCommand cmd params cs tr) := frame_rows ⟨.command, cmd, params, cs, tr⟩
theorem EncodesRow.frameResponse (cmd : Byte) (params : List Byte) (cs tr : Byte) :
    EncodesRow.Statement (.frameResponse cmd params cs tr) := frame_rows ⟨.response, cmd, params, cs, tr⟩
theorem EncodesRow.frameNotification (cmd : Byte) (params : List Byte) (cs tr : Byte) :
    EncodesRow.Statement (.frameNotification cmd params cs tr) := frame_rows ⟨.notification, cmd, params, cs, tr⟩
theorem EncodesRow.getModuleInfo (params : List Byte) : EncodesRow.Statement (.getModuleInfo params) := rfl
theorem EncodesRow.singlePoll (params : List Byte) : EncodesRow.Statement (.singlePoll params) := rfl
theorem EncodesRow.multiPoll (params : List Byte) : EncodesRow.Statement (.multiPoll params) := rfl
theorem EncodesRow.stopMultiPoll (params : List Byte) : EncodesRow.Statement (.stopMultiPoll params) := rfl
theorem EncodesRow.setRxDemod (params : List Byte) : EncodesRow.Statement (.setRxDemod params) := rfl
theorem EncodesRow.execFailure (params : List Byte) : EncodesRow.Statement (.execFailure params) := rfl
theorem EncodesRow.opOpen (channel readTimeout : Nat) : EncodesRow.Statement (.opOpen channel readTimeout) := by
  simp [EncodesRow.Statement, encode, Code.rows, hostopRows, Row.hits, Instr.mnemonic]
theorem EncodesRow.opClose : EncodesRow.Statement .opClose := by
  simp [EncodesRow.Statement, encode, Code.rows, hostopRows, Row.hits, Instr.mnemonic]
theorem EncodesRow.opEncode (cmd : Byte) (params : List Byte) : EncodesRow.Statement (.opEncode cmd params) := by
  simp [EncodesRow.Statement, encode, Code.rows, hostopRows, Row.hits, Instr.mnemonic]
theorem EncodesRow.opDecode (buf : List Byte) : EncodesRow.Statement (.opDecode buf) := by
  simp [EncodesRow.Statement, encode, Code.rows, hostopRows, Row.hits, Instr.mnemonic]
theorem EncodesRow.opSend (cmd : Byte) (params : List Byte) : EncodesRow.Statement (.opSend cmd params) := by
  simp [EncodesRow.Statement, encode, Code.rows, hostopRows, Row.hits, Instr.mnemonic]
theorem EncodesRow.opReceive : EncodesRow.Statement .opReceive := by
  simp [EncodesRow.Statement, encode, Code.rows, hostopRows, Row.hits, Instr.mnemonic]
theorem EncodesRow.opInvParse (params : List Byte) : EncodesRow.Statement (.opInvParse params) := by
  simp [EncodesRow.Statement, encode, Code.rows, hostopRows, Row.hits, Instr.mnemonic]
theorem EncodesRow.opErrParse (params : List Byte) : EncodesRow.Statement (.opErrParse params) := by
  simp [EncodesRow.Statement, encode, Code.rows, hostopRows, Row.hits, Instr.mnemonic]
theorem EncodesRow.opReadTags (rounds : Nat) : EncodesRow.Statement (.opReadTags rounds) := by
  simp [EncodesRow.Statement, encode, Code.rows, hostopRows, Row.hits, Instr.mnemonic]

end Sys2Proof.Laws
end

