-- ==== Sys2Proof/Laws/State.lean ====
section
/-! SUPPORT. The fields of State after each named update. -/

namespace Sys2Proof.Machine

@[simp] theorem State.start_session (o : SessionOp) (p : Point) (s : State) : (s.start o p).session = { s.session with sBusy := true } := rfl
@[simp] theorem State.start_enc (o : SessionOp) (p : Point) (s : State) : (s.start o p).enc = s.enc := rfl
@[simp] theorem State.start_dec (o : SessionOp) (p : Point) (s : State) : (s.start o p).dec = s.dec := rfl
@[simp] theorem State.start_tags (o : SessionOp) (p : Point) (s : State) : (s.start o p).tags = s.tags := rfl
@[simp] theorem State.start_batch (o : SessionOp) (p : Point) (s : State) : (s.start o p).batch = s.batch := rfl
@[simp] theorem State.start_rest (o : SessionOp) (p : Point) (s : State) : (s.start o p).rest = s.rest := rfl
@[simp] theorem State.start_op (o : SessionOp) (p : Point) (s : State) : (s.start o p).op = some o := rfl
@[simp] theorem State.start_point (o : SessionOp) (p : Point) (s : State) : (s.start o p).point = p := rfl
@[simp] theorem State.start_outcome (o : SessionOp) (p : Point) (s : State) : (s.start o p).outcome = none := rfl
@[simp] theorem State.start_port (o : SessionOp) (p : Point) (s : State) : (s.start o p).port = s.port := rfl
@[simp] theorem State.start_ser (o : SessionOp) (p : Point) (s : State) : (s.start o p).ser = s.ser := rfl
@[simp] theorem State.start_chan (o : SessionOp) (p : Point) (s : State) : (s.start o p).chan = s.chan := rfl
@[simp] theorem State.start_rxbufCap (o : SessionOp) (p : Point) (s : State) : (s.start o p).rxbufCap = s.rxbufCap := rfl

@[simp] theorem State.conclude_session (r : OpOutcome) (s : State) : (s.conclude r).session = { s.session with sBusy := false } := rfl
@[simp] theorem State.conclude_enc (r : OpOutcome) (s : State) : (s.conclude r).enc = { s.enc with txbuf := [] } := rfl
@[simp] theorem State.conclude_dec (r : OpOutcome) (s : State) : (s.conclude r).dec = { s.dec with rxbuf := [], cursor := 0, frames := [], stop := .endOfBuffer } := rfl
@[simp] theorem State.conclude_tags (r : OpOutcome) (s : State) : (s.conclude r).tags = Tags.empty := rfl
@[simp] theorem State.conclude_batch (r : OpOutcome) (s : State) : (s.conclude r).batch = [] := rfl
@[simp] theorem State.conclude_rest (r : OpOutcome) (s : State) : (s.conclude r).rest = [] := rfl
@[simp] theorem State.conclude_op (r : OpOutcome) (s : State) : (s.conclude r).op = none := rfl
@[simp] theorem State.conclude_point (r : OpOutcome) (s : State) : (s.conclude r).point = .idle := rfl
@[simp] theorem State.conclude_outcome (r : OpOutcome) (s : State) : (s.conclude r).outcome = some r := rfl
@[simp] theorem State.conclude_port (r : OpOutcome) (s : State) : (s.conclude r).port = s.port := rfl
@[simp] theorem State.conclude_ser (r : OpOutcome) (s : State) : (s.conclude r).ser = Decoder.reset := rfl
@[simp] theorem State.conclude_chan (r : OpOutcome) (s : State) : (s.conclude r).chan = s.chan := rfl
@[simp] theorem State.conclude_rxbufCap (r : OpOutcome) (s : State) : (s.conclude r).rxbufCap = s.rxbufCap := rfl

@[simp] theorem State.answer_session (r : OpOutcome) (s : State) : (s.answer r).session = s.session := rfl
@[simp] theorem State.answer_enc (r : OpOutcome) (s : State) : (s.answer r).enc = s.enc := rfl
@[simp] theorem State.answer_dec (r : OpOutcome) (s : State) : (s.answer r).dec = s.dec := rfl
@[simp] theorem State.answer_tags (r : OpOutcome) (s : State) : (s.answer r).tags = s.tags := rfl
@[simp] theorem State.answer_batch (r : OpOutcome) (s : State) : (s.answer r).batch = s.batch := rfl
@[simp] theorem State.answer_rest (r : OpOutcome) (s : State) : (s.answer r).rest = s.rest := rfl
@[simp] theorem State.answer_op (r : OpOutcome) (s : State) : (s.answer r).op = s.op := rfl
@[simp] theorem State.answer_point (r : OpOutcome) (s : State) : (s.answer r).point = s.point := rfl
@[simp] theorem State.answer_outcome (r : OpOutcome) (s : State) : (s.answer r).outcome = some r := rfl
@[simp] theorem State.answer_port (r : OpOutcome) (s : State) : (s.answer r).port = s.port := rfl
@[simp] theorem State.answer_ser (r : OpOutcome) (s : State) : (s.answer r).ser = s.ser := rfl
@[simp] theorem State.answer_chan (r : OpOutcome) (s : State) : (s.answer r).chan = s.chan := rfl
@[simp] theorem State.answer_rxbufCap (r : OpOutcome) (s : State) : (s.answer r).rxbufCap = s.rxbufCap := rfl

@[simp] theorem State.startReceive_session (s : State) : (s.startReceive).session = { s.session with sBusy := true } := rfl
@[simp] theorem State.startReceive_enc (s : State) : (s.startReceive).enc = s.enc := rfl
@[simp] theorem State.startReceive_dec (s : State) : (s.startReceive).dec = { s.dec with rxbuf := [], cursor := 0, frames := [] } := rfl
@[simp] theorem State.startReceive_tags (s : State) : (s.startReceive).tags = s.tags := rfl
@[simp] theorem State.startReceive_batch (s : State) : (s.startReceive).batch = s.batch := rfl
@[simp] theorem State.startReceive_rest (s : State) : (s.startReceive).rest = s.rest := rfl
@[simp] theorem State.startReceive_op (s : State) : (s.startReceive).op = some .receive := rfl
@[simp] theorem State.startReceive_point (s : State) : (s.startReceive).point = .read := rfl
@[simp] theorem State.startReceive_outcome (s : State) : (s.startReceive).outcome = none := rfl
@[simp] theorem State.startReceive_port (s : State) : (s.startReceive).port = s.port := rfl
@[simp] theorem State.startReceive_ser (s : State) : (s.startReceive).ser = Decoder.reset := rfl
@[simp] theorem State.startReceive_chan (s : State) : (s.startReceive).chan = s.chan := rfl
@[simp] theorem State.startReceive_rxbufCap (s : State) : (s.startReceive).rxbufCap = s.rxbufCap := rfl

@[simp] theorem State.beginReceive_session (s : State) : s.beginReceive.session = s.session := rfl
@[simp] theorem State.beginReceive_enc (s : State) : s.beginReceive.enc = s.enc := rfl
@[simp] theorem State.beginReceive_dec (s : State) : s.beginReceive.dec = { s.dec with rxbuf := [], cursor := 0, frames := [] } := rfl
@[simp] theorem State.beginReceive_tags (s : State) : s.beginReceive.tags = s.tags := rfl
@[simp] theorem State.beginReceive_batch (s : State) : s.beginReceive.batch = s.batch := rfl
@[simp] theorem State.beginReceive_rest (s : State) : s.beginReceive.rest = s.rest := rfl
@[simp] theorem State.beginReceive_op (s : State) : s.beginReceive.op = s.op := rfl
@[simp] theorem State.beginReceive_point (s : State) : s.beginReceive.point = .read := rfl
@[simp] theorem State.beginReceive_outcome (s : State) : s.beginReceive.outcome = s.outcome := rfl
@[simp] theorem State.beginReceive_port (s : State) : s.beginReceive.port = s.port := rfl
@[simp] theorem State.beginReceive_ser (s : State) : s.beginReceive.ser = Decoder.reset := rfl
@[simp] theorem State.beginReceive_chan (s : State) : s.beginReceive.chan = s.chan := rfl
@[simp] theorem State.beginReceive_rxbufCap (s : State) : s.beginReceive.rxbufCap = s.rxbufCap := rfl

@[simp] theorem State.hear_session (b : List Byte) (s : State) : (s.hear b).session = s.session := rfl
@[simp] theorem State.hear_enc (b : List Byte) (s : State) : (s.hear b).enc = s.enc := rfl
@[simp] theorem State.hear_dec (b : List Byte) (s : State) : (s.hear b).dec = { s.dec with rxbuf := b } := rfl
@[simp] theorem State.hear_tags (b : List Byte) (s : State) : (s.hear b).tags = s.tags := rfl
@[simp] theorem State.hear_batch (b : List Byte) (s : State) : (s.hear b).batch = s.batch := rfl
@[simp] theorem State.hear_rest (b : List Byte) (s : State) : (s.hear b).rest = s.rest := rfl
@[simp] theorem State.hear_op (b : List Byte) (s : State) : (s.hear b).op = s.op := rfl
@[simp] theorem State.hear_point (b : List Byte) (s : State) : (s.hear b).point = s.point := rfl
@[simp] theorem State.hear_outcome (b : List Byte) (s : State) : (s.hear b).outcome = s.outcome := rfl
@[simp] theorem State.hear_port (b : List Byte) (s : State) : (s.hear b).port = s.port := rfl
@[simp] theorem State.hear_ser (b : List Byte) (s : State) : (s.hear b).ser = (b.drop s.rxlen).foldl Decoder.serialByte s.ser := rfl
@[simp] theorem State.hear_chan (b : List Byte) (s : State) : (s.hear b).chan = s.chan := rfl
@[simp] theorem State.hear_rxbufCap (b : List Byte) (s : State) : (s.hear b).rxbufCap = s.rxbufCap := rfl

@[simp] theorem State.passThrough_session (p : List Byte) (s : State) : (s.passThrough p).session = s.session := rfl
@[simp] theorem State.passThrough_enc (p : List Byte) (s : State) : (s.passThrough p).enc = s.enc := rfl
@[simp] theorem State.passThrough_dec (p : List Byte) (s : State) : (s.passThrough p).dec = s.dec := rfl
@[simp] theorem State.passThrough_tags (p : List Byte) (s : State) : (s.passThrough p).tags = s.tags := rfl
@[simp] theorem State.passThrough_batch (p : List Byte) (s : State) : (s.passThrough p).batch = s.batch := rfl
@[simp] theorem State.passThrough_rest (p : List Byte) (s : State) : (s.passThrough p).rest = s.rest := rfl
@[simp] theorem State.passThrough_op (p : List Byte) (s : State) : (s.passThrough p).op = s.op := rfl
@[simp] theorem State.passThrough_point (p : List Byte) (s : State) : (s.passThrough p).point = s.point := rfl
@[simp] theorem State.passThrough_outcome (p : List Byte) (s : State) : (s.passThrough p).outcome = s.outcome := rfl
@[simp] theorem State.passThrough_port (p : List Byte) (s : State) : (s.passThrough p).port = s.port := rfl
@[simp] theorem State.passThrough_ser (p : List Byte) (s : State) : (s.passThrough p).ser = s.ser := rfl
@[simp] theorem State.passThrough_chan (p : List Byte) (s : State) : (s.passThrough p).chan = s.chan := rfl
@[simp] theorem State.passThrough_rxbufCap (p : List Byte) (s : State) : (s.passThrough p).rxbufCap = s.rxbufCap := rfl

theorem State.raise_eq (e : OpError) (s : State) : s.raise e = s.conclude (.error e) := rfl

@[simp] theorem Decoder.consume_rxbuf (r : StopReason) (d : Decoder) : (d.consume r).rxbuf = [] := rfl
@[simp] theorem Decoder.consume_cursor (r : StopReason) (d : Decoder) : (d.consume r).cursor = 0 := rfl
@[simp] theorem Decoder.consume_frames (r : StopReason) (d : Decoder) : (d.consume r).frames = [] := rfl
@[simp] theorem Decoder.consume_stop (r : StopReason) (d : Decoder) : (d.consume r).stop = r := rfl
@[simp] theorem Decoder.consume_dType (r : StopReason) (d : Decoder) : (d.consume r).dType = d.dType := rfl
@[simp] theorem Decoder.consume_dCmd (r : StopReason) (d : Decoder) : (d.consume r).dCmd = d.dCmd := rfl
@[simp] theorem Decoder.consume_dLen (r : StopReason) (d : Decoder) : (d.consume r).dLen = d.dLen := rfl
@[simp] theorem Decoder.consume_dCnt (r : StopReason) (d : Decoder) : (d.consume r).dCnt = d.dCnt := rfl
@[simp] theorem Decoder.consume_dAcc (r : StopReason) (d : Decoder) : (d.consume r).dAcc = d.dAcc := rfl
@[simp] theorem Decoder.consume_dCs (r : StopReason) (d : Decoder) : (d.consume r).dCs = d.dCs := rfl
@[simp] theorem Decoder.consume_dPhase (r : StopReason) (d : Decoder) : (d.consume r).dPhase = d.dPhase := rfl
@[simp] theorem Decoder.consume_pbuf (r : StopReason) (d : Decoder) : (d.consume r).pbuf = d.pbuf := rfl

@[simp] theorem Channel.accept_writes (n : Nat) (bytes : List Byte) (ws : List WriteAnswer) (c : Channel) :
    (c.accept n bytes ws).writes = ws := rfl
@[simp] theorem Channel.accept_reads (n : Nat) (bytes : List Byte) (ws : List WriteAnswer) (c : Channel) :
    (c.accept n bytes ws).reads = c.reads := rfl
@[simp] theorem Channel.accept_closes (n : Nat) (bytes : List Byte) (ws : List WriteAnswer) (c : Channel) :
    (c.accept n bytes ws).closes = c.closes := rfl
@[simp] theorem Channel.accept_wire (n : Nat) (bytes : List Byte) (ws : List WriteAnswer) (c : Channel) :
    (c.accept n bytes ws).wire = c.wire ++ bytes.take n := rfl

/-! The answer to `close`. -/

@[simp] theorem Channel.closed_writes (c : Channel) : c.closed.writes = c.writes := by
  unfold Channel.closed; split <;> rfl
@[simp] theorem Channel.closed_reads (c : Channel) : c.closed.reads = c.reads := by
  unfold Channel.closed; split <;> rfl
@[simp] theorem Channel.closed_wire (c : Channel) : c.closed.wire = c.wire := by
  unfold Channel.closed; split <;> rfl

/-! The byte-serial form's events. -/

@[simp] theorem Decoder.serialEvent_byte (d : Decoder) (b : Byte) : d.serialEvent (.byte b) = d.serialByte b := rfl
@[simp] theorem Decoder.serialEvent_finish_result (d : Decoder) : (d.serialEvent .finish).serialResult = d.serialResult := rfl

/-! The drain's outcomes. -/

@[simp] theorem State.drained_waiting (buf : List Byte) (s : State) :
    s.drained (.waiting buf) = s.hear buf := rfl
@[simp] theorem State.drained_done (buf : List Byte) (s : State) :
    s.drained (.done buf) =
      { s with dec := { s.dec with rxbuf := buf, cursor := 0, frames := [] }
               ser := (s.hear buf).ser.serialEvent .finish, point := .decode } := rfl
@[simp] theorem State.drained_failed (s : State) : s.drained .failed = s.conclude (.error (.ioError .read)) := rfl
@[simp] theorem State.drained_overflow (s : State) : s.drained .overflow = s.conclude .rxOverflow := rfl

end Sys2Proof.Machine
end

