-- ==== Sys2Proof/Laws/Session.lean ====
section
/-! SUPPORT. Everything the session's shared operations can do: the drain, the channel calls, the ends of the loops
(spec/43_session.md R167, R168, R170, R174, R185). -/

namespace Sys2Proof.Machine

open Config

theorem sessionRefusal_eq_none {s : State} : s.sessionRefusal = none ↔ s.session.sOpen = true ∧ s.session.sBusy = false := by
  unfold State.sessionRefusal
  cases s.session.sOpen <;> cases s.session.sBusy <;> simp

/-! The drain. -/

@[simp] theorem exceeds_zero (cap : Option Nat) : exceeds cap 0 = false := by cases cap <;> simp [exceeds]

/-- A drain goes through chunks that are not empty and fit. -/
theorem drain_chunks (cap : Option Nat) (chunks : List (List Byte)) (buf : List Byte) (rs : List ReadAnswer)
    (hne : ∀ c ∈ chunks, c ≠ []) (hcap : exceeds cap (buf.length + chunks.flatten.length) = false) :
    drain cap buf (chunks.map .chunk ++ rs) = drain cap (buf ++ chunks.flatten) rs := by
  induction chunks generalizing buf with
  | nil => simp
  | cons c cs ih =>
    match c, hne with
    | [], hne => simp at hne
    | b :: bs, hne =>
      have h1 : exceeds cap (buf.length + (b :: bs).length) = false := by
        cases cap with
        | none => rfl
        | some n => simp [exceeds] at hcap ⊢; omega
      rw [List.map_cons, List.cons_append, drain, if_neg (by rw [h1]; decide), ih]
      · simp
      · exact fun c hc => hne c (List.mem_cons_of_mem _ hc)
      · rw [← hcap]; congr 1; simp; omega

/-- A drain never leaves more than the capacity in the buffer. -/
theorem drain_capacity (cap : Option Nat) (rs : List ReadAnswer) (buf : List Byte) (h : exceeds cap buf.length = false)
    (b : List Byte) (hb : (drain cap buf rs).1 = .waiting b ∨ (drain cap buf rs).1 = .done b) :
    exceeds cap b.length = false := by
  induction rs generalizing buf with
  | nil => simp [drain] at hb; rw [← hb]; exact h
  | cons a rs ih =>
    match a with
    | .error => simp [drain] at hb
    | .chunk [] => simp [drain] at hb; rw [← hb]; exact h
    | .chunk (x :: xs) =>
      simp only [drain] at hb
      split at hb
      · simp at hb
      · rename_i hx
        exact ih _ (by simpa using hx) hb

/-! The `write`. -/

/-- Everything a `write` can answer. -/
theorem State.write_cases (s : State) :
    (s.chan.writes = [] ∧ s.write = .next s) ∨
    (∃ n ws, s.chan.writes = .count n :: ws ∧ n < s.enc.txbuf.length ∧
      s.write = .next ({ s with chan := s.chan.accept n s.enc.txbuf ws }.raise (.ioError (.shortWrite n)))) ∨
    (∃ ws, s.chan.writes = .count s.enc.txbuf.length :: ws ∧
      s.write = .next { s with chan := s.chan.accept s.enc.txbuf.length s.enc.txbuf ws }.written) ∨
    (∃ n ws, s.chan.writes = .error n :: ws ∧ n ≤ s.enc.txbuf.length ∧
      s.write = .next ({ s with chan := s.chan.accept n s.enc.txbuf ws }.raise (.ioError .write))) ∨
    (∃ n ws, (s.chan.writes = .count n :: ws ∨ s.chan.writes = .error n :: ws) ∧ s.enc.txbuf.length < n ∧
      s.write = .fault .channelContract) := by
  unfold State.write
  split
  · rename_i hw; exact .inl ⟨hw, rfl⟩
  · rename_i n ws hw
    split
    · exact .inr (.inl ⟨n, ws, hw, by assumption, rfl⟩)
    · split
      · rename_i h; subst h; exact .inr (.inr (.inl ⟨ws, hw, rfl⟩))
      · exact .inr (.inr (.inr (.inr ⟨n, ws, .inl hw, by omega, rfl⟩)))
  · rename_i n ws hw
    split
    · exact .inr (.inr (.inr (.inl ⟨n, ws, hw, by assumption, rfl⟩)))
    · exact .inr (.inr (.inr (.inr ⟨n, ws, .inr hw, by omega, rfl⟩)))

theorem State.write_not_refused (s : State) (r : Refusal) : s.write ≠ .refused r := by
  rcases s.write_cases with ⟨_, h⟩ | ⟨_, _, _, _, h⟩ | ⟨_, _, h⟩ | ⟨_, _, _, _, h⟩ | ⟨_, _, _, _, h⟩ <;> simp [h]

/-- SEND's frame: too long, or at its `write` with the frame in TXBUF. -/
theorem State.sendFrame_cases (cmd : Byte) (params : List Byte) (s : State) :
    (MAX_PARAM_LEN < params.length ∧
      s.sendFrame cmd params = .next (s.raise (.encodingError params.length))) ∨
    (params.length ≤ MAX_PARAM_LEN ∧
      s.sendFrame cmd params = { s with enc := s.enc.emitFrame cmd params, point := .write }.write) := by
  by_cases h : params.length ≤ MAX_PARAM_LEN
  · exact .inr ⟨h, by simp only [State.sendFrame, Encoder.encode_ok _ h]⟩
  · exact .inl ⟨by omega, by simp only [State.sendFrame, Encoder.encode_error _ (Nat.lt_of_not_le h)]⟩

/-! The `close`. -/

/-- Everything a `close` can answer: the answer presented, or a free value. -/
theorem State.closeChannel_cases (s : State) :
    (∃ a cs, s.chan.closes = a :: cs ∧ s.chan.closeAnswer = a ∧ s.closeChannel.chan = { s.chan with closes := cs }) ∨
    (s.chan.closes = [] ∧ (s.chan.closeAnswer = .error ↔ closeFails s.chan.draws = true) ∧
      s.closeChannel.chan = { s.chan with draws := s.chan.draws + 1 }) := by
  obtain ⟨l, hl⟩ : ∃ l, s.chan.closes = l := ⟨_, rfl⟩
  cases l with
  | cons a cs => exact .inl ⟨a, cs, hl, by simp only [Channel.closeAnswer, hl], by simp [State.closeChannel, Channel.closed, hl]⟩
  | nil => exact .inr ⟨hl, by simp only [Channel.closeAnswer, hl]; split <;> simp_all, by simp [State.closeChannel, Channel.closed, hl]⟩

/-- The session is over whatever `close` answers. -/
@[simp] theorem State.closeChannel_session (s : State) :
    s.closeChannel.session = { s.session with channel := none, sOpen := false, sBusy := false } := rfl

/-! The ends of the loops. -/

theorem State.endDecode_readTags {s : State} (r : StopReason) (h : s.op = some .readTags) :
    s.endDecode r =
      { s with dec := s.dec.consume r, tags := Tags.empty, batch := s.dec.frames, rest := s.dec.remaining
               point := .dispatch, ser := Decoder.reset } := by
  unfold State.endDecode; rw [h]

theorem State.endDecode_receive {s : State} (r : StopReason) (h : s.op ≠ some .readTags) :
    s.endDecode r =
      { s with dec := s.dec.consume r }.conclude
        (.received { frames := s.dec.frames, stop := r, rest := s.dec.remaining }) := by
  unfold State.endDecode
  split
  · contradiction
  · rfl

theorem State.written_readTags {s : State} (h : s.op = some .readTags) :
    s.written = { s with enc := { s.enc with txbuf := [] } }.beginReceive := by
  unfold State.written; rw [h]

theorem State.written_send {s : State} (h : s.op ≠ some .readTags) : s.written = s.conclude .ok := by
  unfold State.written
  split
  · contradiction
  · rfl

/-- A move of the loops does nothing at another control point. -/
theorem State.runDispatch_of_ne {s : State} (h : s.point ≠ .dispatch) : s.runDispatch = s := by
  unfold State.runDispatch; split <;> first | contradiction | rfl

theorem State.runDecode_of_ne {s : State} (h : s.point ≠ .decode) : s.runDecode = s := by
  unfold State.runDecode; split <;> first | contradiction | rfl

theorem State.runReceive_of_ne {s : State} (h : s.point ≠ .read) : s.runReceive = s := by
  unfold State.runReceive; split <;> first | contradiction | rfl

/-! READTAGS's accumulation. -/

theorem inventoryReport_cases (p : List Byte) :
    (p.length < 17 ∧ inventoryReport p = .error p.length) ∨
      (17 ≤ p.length ∧ ∃ rep, inventoryReport p = .ok rep ∧ rep.identifier = (p.drop 3).take 12) := by
  by_cases h : p.length < 17
  · exact .inl ⟨h, by simp [inventoryReport, h]⟩
  · exact .inr ⟨by omega, _, dif_neg h, rfl⟩

/-- What one frame does to the accumulation. -/
theorem Tags.dispatch_cases (t : Tags) (f : Frame) :
    (f.command = OP_SINGLE_POLL ∧ t.dispatch f = t.inventory f.parameters) ∨
    (f.command = OP_EXEC_FAILURE ∧ t.dispatch f = t.failure f.parameters) ∨
    (f.command ≠ OP_SINGLE_POLL ∧ f.command ≠ OP_EXEC_FAILURE ∧ t.dispatch f = t) := by
  unfold Tags.dispatch
  split
  · exact .inl ⟨by assumption, rfl⟩
  · split
    · exact .inr (.inl ⟨by assumption, rfl⟩)
    · exact .inr (.inr ⟨by assumption, by assumption, rfl⟩)

/-- What one payload does to the pool. -/
theorem Tags.inventory_cases (t : Tags) (p : List Byte) :
    (p.length < 17 ∧ t.inventory p = { t with shortCount := t.shortCount + 1 }) ∨
    (∃ rep, inventoryReport p = .ok rep ∧
      (((∃ e ∈ t.pool, e.identifier = rep.identifier) ∧ t.inventory p = t) ∨
       ((∀ e ∈ t.pool, e.identifier ≠ rep.identifier) ∧ t.inventory p = { t with pool := t.pool ++ [rep] }))) := by
  rcases inventoryReport_cases p with ⟨h, he⟩ | ⟨_, rep, he, _⟩
  · exact .inl ⟨h, by simp [Tags.inventory, he]⟩
  · refine .inr ⟨rep, he, ?_⟩
    by_cases ha : t.pool.any (fun e => e.identifier == rep.identifier) = true
    · exact .inl ⟨by simpa using ha, by simp only [Tags.inventory, he, ha, if_true]⟩
    · refine .inr ⟨by simpa using ha, ?_⟩
      simp only [Tags.inventory, he, ha]
      rfl

end Sys2Proof.Machine
end

