-- ==== Sys2Proof/Laws/Step.lean ====
section
/-! SUPPORT. Everything a step can do (spec/43_session.md, log 13). -/

namespace Sys2Proof.Machine

/-- Everything a step can do. -/
theorem step_cases (s : State) :
    (∃ q qs i, s.port = q :: qs ∧ decodeRequest q = some i ∧ step s = exec i { s with port := qs }) ∨
    (∃ q qs, s.port = q :: qs ∧ decodeRequest q = none ∧ step s = .refused .badOpsel) ∨
    (s.port = [] ∧ ¬ s.CanGoOn ∧ step s = .next s) ∨
    (s.port = [] ∧ s.point = .write ∧ s.chan.writes ≠ [] ∧ step s = s.write) ∨
    (∃ a rs, s.port = [] ∧ s.point = .read ∧ s.chan.reads = a :: rs ∧ step s = .next (s.readOne a rs)) ∨
    (∃ w, s.port = [] ∧ s.point = .decode ∧ decodeFrame s.dec.remaining = .ok w ∧ step s = exec w.toInstr s) ∨
    (∃ r, s.port = [] ∧ s.point = .decode ∧ decodeFrame s.dec.remaining = .error r ∧
      step s = .next ({ s with dec := s.dec.latch }.endDecode r)) ∨
    (s.port = [] ∧ s.point = .dispatch ∧ s.batch = [] ∧ step s = .next s.endTags) ∨
    (∃ f fs i, s.port = [] ∧ s.point = .dispatch ∧ s.batch = f :: fs ∧ decodeCommand f.command f.parameters = some i ∧
      step s = exec i { s with batch := fs }) ∨
    (∃ f fs, s.port = [] ∧ s.point = .dispatch ∧ s.batch = f :: fs ∧ decodeCommand f.command f.parameters = none ∧
      step s = .next { s with batch := fs }) := by
  have waits : s.port = [] → ¬ s.CanGoOn → fetch s = .move (.next s) → s.port = [] ∧ ¬ s.CanGoOn ∧ step s = .next s :=
    fun hp hc hf => ⟨hp, hc, by unfold step; rw [hf]⟩
  obtain ⟨port, hp⟩ : ∃ p, s.port = p := ⟨_, rfl⟩
  cases port with
  | cons q qs =>
    match hd : decodeRequest q with
    | some i => exact .inl ⟨q, qs, i, hp, hd, by simp only [step, fetch, hp, hd]⟩
    | none => exact .inr (.inl ⟨q, qs, hp, hd, by simp only [step, fetch, hp, hd]⟩)
  | nil =>
    have hf : fetch s = fetchInFlight s := by simp only [fetch, hp]
    refine .inr (.inr ?_)
    obtain ⟨point, hpt⟩ : ∃ p, s.point = p := ⟨_, rfl⟩
    cases point with
    | idle => exact .inl (waits hp (by simp [State.CanGoOn, hpt]) (by rw [hf]; simp only [fetchInFlight, hpt]))
    | write =>
      obtain ⟨ws, hw⟩ : ∃ p, s.chan.writes = p := ⟨_, rfl⟩
      cases ws with
      | nil => exact .inl (waits hp (by simp [State.CanGoOn, hpt, hw]) (by rw [hf]; simp only [fetchInFlight, hpt, hw]))
      | cons a ws =>
        refine .inr (.inl ⟨hp, hpt, by simp [hw], ?_⟩)
        unfold step; rw [hf]; simp only [fetchInFlight, hpt, hw]
    | read =>
      obtain ⟨rs, hw⟩ : ∃ p, s.chan.reads = p := ⟨_, rfl⟩
      cases rs with
      | nil => exact .inl (waits hp (by simp [State.CanGoOn, hpt, hw]) (by rw [hf]; simp only [fetchInFlight, hpt, hw]))
      | cons a rs =>
        refine .inr (.inr (.inl ⟨a, rs, hp, hpt, hw, ?_⟩))
        unfold step; rw [hf]; simp only [fetchInFlight, hpt, hw]
    | decode =>
      have h : fetch s = fetchFrame s := by rw [hf]; simp only [fetchInFlight, hpt]
      cases hw : decodeFrame s.dec.remaining with
      | ok w =>
        refine .inr (.inr (.inr (.inl ⟨w, hp, hpt, rfl, ?_⟩)))
        unfold step; rw [h]; unfold fetchFrame; rw [hw]
      | error r =>
        refine .inr (.inr (.inr (.inr (.inl ⟨r, hp, hpt, rfl, ?_⟩))))
        unfold step; rw [h]; unfold fetchFrame; rw [hw]
    | dispatch =>
      have h : fetch s = fetchCommand s := by rw [hf]; simp only [fetchInFlight, hpt]
      obtain ⟨batch, hb⟩ : ∃ p, s.batch = p := ⟨_, rfl⟩
      cases batch with
      | nil =>
        refine .inr (.inr (.inr (.inr (.inr (.inl ⟨hp, hpt, hb, ?_⟩)))))
        unfold step; rw [h]; unfold fetchCommand; rw [hb]
      | cons f fs =>
        cases hd : decodeCommand f.command f.parameters with
        | some i =>
          refine .inr (.inr (.inr (.inr (.inr (.inr (.inl ⟨f, fs, i, hp, hpt, hb, hd, ?_⟩))))))
          unfold step; rw [h]; unfold fetchCommand; rw [hb]; simp only [hd]
        | none =>
          refine .inr (.inr (.inr (.inr (.inr (.inr (.inr ⟨f, fs, hp, hpt, hb, hd, ?_⟩))))))
          unfold step; rw [h]; unfold fetchCommand; rw [hb]; simp only [hd]

end Sys2Proof.Machine
end

