-- ==== Sys2Proof/Tests/Slice0.lean ====
section
/-! SUPPORT. Tests: ill-formed terms that WellFormed refuses; words written out from the spec's encodings; at most two small
tests per instruction, their expected values from spec/95_test_vectors.md (the vector's name is in the comment); and for
each obligation with hypotheses a state and operands that meet them. -/

namespace Sys2Proof.Tests

open Sys2Proof.Machine Sys2Proof.Config

/-! Helpers. -/

/-- A session open and idle, with these channel answers to come. -/
def openState (writes : List WriteAnswer) (reads : List ReadAnswer) (closes : List CloseAnswer) : State :=
  { State.reset with
    session := { channel := some 1, readTimeout := 5, sOpen := true, sBusy := false }
    chan := { writes := writes, reads := reads, closes := closes, wire := [], draws := 0 } }

/-- The outcome of a step that goes on. -/
def outcome : Host.Outcome State Fault Refusal → Option OpOutcome
  | .next s => s.outcome
  | .fault _ => none
  | .refused _ => none

/-- The bytes on the wire after a step that goes on. -/
def wire : Host.Outcome State Fault Refusal → List Byte
  | .next s => s.chan.wire
  | .fault _ => []
  | .refused _ => []

/-- The accumulation of READTAGS after a step that goes on. -/
def tags : Host.Outcome State Fault Refusal → Option Tags
  | .next s => some s.tags
  | .fault _ => none
  | .refused _ => none

/-- A step goes on, with the session open and idle. -/
def idle : Host.Outcome State Fault Refusal → Bool
  | .next s => s.session.sOpen && !s.session.sBusy
  | .fault _ => false
  | .refused _ => false

/-- The stop of a step that does not go on. -/
def refusal : Host.Outcome State Fault Refusal → Option Refusal
  | .next _ => none
  | .fault _ => none
  | .refused r => some r

/-- The parameters of vector V50. -/
def v50 : List Byte :=
  [0xC7, 0x30, 0x00, 0xE2, 0x80, 0x68, 0x90, 0x00, 0x00, 0x50, 0x0E, 0x88, 0xC6, 0xA4, 0xA7, 0x11, 0x9B]

/-- The report of vector V50. -/
def v50Report : InventoryReport :=
  { signalStrength := 0xC7, protocolControl := 0x3000
    identifier := [0xE2, 0x80, 0x68, 0x90, 0x00, 0x00, 0x50, 0x0E, 0x88, 0xC6, 0xA4, 0xA7], crc := 0x119B }

/-! WellFormed refuses a frame or a received command with more than 65535 parameter bytes (R27), and takes the largest. -/

/-- 65536 bytes (V19e). -/
def longParams : List Byte := List.replicate 65536 0

/-- 65535 bytes (V19d). -/
def maxParams : List Byte := List.replicate 65535 0

theorem longParams_length : longParams.length = 65536 := List.length_replicate
theorem maxParams_length : maxParams.length = 65535 := List.length_replicate

theorem paramsFit_long : paramsFit longParams = false := by unfold paramsFit; rw [longParams_length]; rfl
theorem paramsFit_max : paramsFit maxParams = true := by unfold paramsFit; rw [maxParams_length]; rfl


theorem test_wf_refuses_frameCommand : (Instr.frameCommand 0 longParams 0 0).wf = false := paramsFit_long
theorem test_wf_refuses_frameResponse : (Instr.frameResponse 0 longParams 0 0).wf = false := paramsFit_long
theorem test_wf_refuses_frameNotification : (Instr.frameNotification 0 longParams 0 0).wf = false := paramsFit_long
theorem test_wf_refuses_getModuleInfo : (Instr.getModuleInfo longParams).wf = false := paramsFit_long
theorem test_wf_refuses_singlePoll : (Instr.singlePoll longParams).wf = false := paramsFit_long
theorem test_wf_refuses_multiPoll : (Instr.multiPoll longParams).wf = false := paramsFit_long
theorem test_wf_refuses_stopMultiPoll : (Instr.stopMultiPoll longParams).wf = false := paramsFit_long
theorem test_wf_refuses_setRxDemod : (Instr.setRxDemod longParams).wf = false := paramsFit_long
theorem test_wf_refuses_execFailure : (Instr.execFailure longParams).wf = false := paramsFit_long
theorem test_wf_takes_the_largest : (Instr.frameResponse 0 maxParams 0 0).wf = true := paramsFit_max

/-! Words written out from the encodings of spec/30_encoding.md R70, R77, R78, R90. -/

theorem test_decode_frameCommand : decode (.frame [0xAA, 0x00, 0x22, 0x00, 0x00, 0x22, 0xDD]) = .ok (.frameCommand 0x22 [] 0x22 0xDD) := by decide
theorem test_decode_frameResponse : decode (.frame [0xAA, 0x01, 0x03, 0x00, 0x02, 0x00, 0x01, 0x07, 0xDD]) = .ok (.frameResponse 0x03 [0x00, 0x01] 0x07 0xDD) := by decide
theorem test_decode_frameNotification : decode (.frame [0xAA, 0x02, 0x22, 0x00, 0x00, 0x24, 0xDD]) = .ok (.frameNotification 0x22 [] 0x24 0xDD) := by decide
theorem test_decode_getModuleInfo : decode (.command 0x03 [0x00]) = .ok (.getModuleInfo [0x00]) := by decide
theorem test_decode_singlePoll : decode (.command 0x22 []) = .ok (.singlePoll []) := by decide
theorem test_decode_multiPoll : decode (.command 0x27 [0x22, 0x00, 0x0A]) = .ok (.multiPoll [0x22, 0x00, 0x0A]) := by decide
theorem test_decode_stopMultiPoll : decode (.command 0x28 []) = .ok (.stopMultiPoll []) := by decide
theorem test_decode_setRxDemod : decode (.command 0xF0 [0xFF]) = .ok (.setRxDemod [0xFF]) := by decide
theorem test_decode_execFailure : decode (.command 0xFF [0x15]) = .ok (.execFailure [0x15]) := by decide
theorem test_decode_open : decode (.request { opsel := 0, channel := 3, timeout := 9 }) = .ok (.opOpen 3 9) := by decide
theorem test_decode_close : decode (.request { opsel := 1 }) = .ok (.opClose) := by decide
theorem test_decode_encode : decode (.request { opsel := 2, cmd := 0x22, bytes := [1] }) = .ok (.opEncode 0x22 [1]) := by decide
theorem test_decode_decode : decode (.request { opsel := 3, bytes := [0xAA] }) = .ok (.opDecode [0xAA]) := by decide
theorem test_decode_send : decode (.request { opsel := 4, cmd := 0x28, bytes := [2] }) = .ok (.opSend 0x28 [2]) := by decide
theorem test_decode_receive : decode (.request { opsel := 5 }) = .ok (.opReceive) := by decide
theorem test_decode_invParse : decode (.request { opsel := 6, bytes := [7] }) = .ok (.opInvParse [7]) := by decide
theorem test_decode_errParse : decode (.request { opsel := 7, bytes := [0x15] }) = .ok (.opErrParse [0x15]) := by decide
theorem test_decode_readTags : decode (.request { opsel := 8, rounds := 300 }) = .ok (.opReadTags 300) := by decide

/-- A damaged trailer is no bar (V43), bytes after the frame are left alone. -/
theorem test_decode_trailer :
    decode (.frame [0xAA, 0x01, 0x03, 0x00, 0x02, 0x00, 0x01, 0x07, 0x00, 0xAA]) =
      .ok (.frameResponse 0x03 [0x00, 0x01] 0x07 0x00) := by decide
/-- V26, V39, V38, V34, V20 and R85, R90. -/
theorem test_decode_rejects :
    decode (.frame [0x00, 0xAA, 0x01]) = .error (.stop .badHeader) ∧
    decode (.frame [0xAA, 0x03, 0x22, 0x00, 0x00, 0x25, 0xDD]) = .error (.stop .badType) ∧
    decode (.frame [0xAA, 0x00]) = .error (.stop .badType) ∧
    decode (.frame [0xAA, 0x01, 0x03, 0x00, 0x02]) = .error (.stop .truncatedFrame) ∧
    decode (.frame []) = .error (.stop .endOfBuffer) ∧
    decode (.command 0x39 []) = .error (.unlistedOpcode 0x39) ∧
    decode (.request { opsel := 9 }) = .error (.badOpsel 9) := by decide

/-! Words as the opcode table numbers them, and the step that runs them after reset (log 24). -/

theorem test_table_word_frame : decodeTableWord 40 0xAA01220000 = some (.frameResponse 0x22 [] 0 0) := by decide
theorem test_table_word_opcode : decodeTableWord 40 0x0000FF0000 = some (.execFailure []) := by decide
theorem test_table_word_hostop : decodeTableWord 8 0x5 = some .opReceive ∧ decodeTableWord 8 0x9 = none := by decide
theorem test_step_runs_table_frame :
    outcome (step (State.reset.withFetchWord 40 0xAA00220000)) =
      some (.received { frames := [], stop := .badType, rest := [0xAA, 0x00, 0x22, 0x00, 0x00, 0x00, 0x00] }) := by decide
theorem test_step_runs_table_opcode :
    tags (step (State.reset.withFetchWord 40 0x0000220000)) = some { Tags.empty with shortCount := 1 } := by decide
theorem test_step_runs_table_hostop : outcome (step (State.reset.withFetchWord 8 0x0)) = some .opened := by decide

/-! The checksum: V2 to V7, V8. -/

theorem test_csum_wraps : csum [0xFF, 0x01] = 0x00 ∧ csum [0x80, 0x80] = 0x00 ∧ csum [0x01, 0x22, 0x00, 0x00] = 0x23 ∧
    csum [0x00, 0x27, 0x00, 0x03, 0x22, 0x00, 0x0A] = 0x56 := by decide
theorem test_csum_long : csum (List.replicate 300 0xFF) = 0xD4 := by
  unfold csum; rw [List.map_replicate, List.sum_replicate]; rfl

/-! The frame rows, in the decode loop of a RECEIVE. -/

/-- A RECEIVE that stands in its decode loop with these bytes and one frame behind it. -/
def loopState (cursor : Nat) (bytes : List Byte) : State :=
  { openState [] [] [] with
    session := { channel := some 1, readTimeout := 5, sOpen := true, sBusy := true }
    op := some .receive, point := .decode
    dec := { Decoder.reset with rxbuf := bytes, cursor := cursor } }

/-- The frames, the cursor and the bytes left after a step that goes on. -/
def loop : Host.Outcome State Fault Refusal → Option (List Frame × Nat × List Byte)
  | .next s => some (s.dec.frames, s.dec.cursor, s.dec.remaining)
  | .fault _ => none
  | .refused _ => none

/-- The first frame of V25; the cursor is past the trailer. -/
theorem test_response_frame :
    loop (step (loopState 0 [0xAA, 0x01, 0x03, 0x00, 0x02, 0x00, 0x01, 0x07, 0xDD, 0x00, 0xAA, 0x01])) =
      some ([⟨0x01, 0x03, [0x00, 0x01], 0x07, true⟩], 9, [0x00, 0xAA, 0x01]) := by decide
/-- V42: a checksum byte that does not match. -/
theorem test_response_bad_checksum :
    loop (step (loopState 0 [0xAA, 0x01, 0x03, 0x00, 0x02, 0x00, 0x01, 0x00, 0xDD])) =
      some ([⟨0x01, 0x03, [0x00, 0x01], 0x00, false⟩], 9, []) := by decide
/-- V44: the flag covers the type byte. -/
theorem test_notification_frame :
    loop (step (loopState 0 [0xAA, 0x02, 0x03, 0x00, 0x02, 0x00, 0x01, 0x07, 0xDD])) =
      some ([⟨0x02, 0x03, [0x00, 0x01], 0x07, false⟩], 9, []) := by decide
/-- V29 at its second frame: BadType, the rest from the cursor on. -/
theorem test_command_frame :
    outcome (step (loopState 2 [0x11, 0x22, 0xAA, 0x00, 0x22, 0x00, 0x00, 0x22, 0xDD])) =
      some (.received ⟨[], .badType, [0xAA, 0x00, 0x22, 0x00, 0x00, 0x22, 0xDD]⟩) := by decide

/-! The opcode rows (R175, R177, R179, R180; V50, V51, V56, V58). -/

theorem test_single_poll_first_seen : (Tags.empty.inventory v50).pool = [v50Report] ∧
    ((Tags.empty.inventory v50).inventory (0xC0 :: v50.tail)).pool = [v50Report] := by decide
theorem test_single_poll_short : tags (exec (.singlePoll (v50.take 16)) State.reset) = some ⟨[], none, 1⟩ := by decide
theorem test_exec_failure_last_wins :
    ((Tags.empty.failure [0x15]).failure [0x17, 0x00]).lastError = some ⟨some 0x17, errClass 0x17⟩ := rfl
theorem test_exec_failure_empty : tags (exec (.execFailure []) State.reset) = some ⟨[], some ⟨none, .unknown⟩, 0⟩ := by decide
theorem test_others_pass_through :
    tags (exec (.getModuleInfo v50) State.reset) = some Tags.empty ∧ tags (exec (.multiPoll v50) State.reset) = some Tags.empty ∧
    tags (exec (.stopMultiPoll v50) State.reset) = some Tags.empty ∧ tags (exec (.setRxDemod v50) State.reset) = some Tags.empty := by
  decide

/-! ENCODE (V14, V19), DECODE (V48, V28), INVPARSE (V54, V51), ERRPARSE (V57, V58). -/

theorem test_encode_v14 :
    outcome (exec (.opEncode 0x27 [0x22, 0x00, 0x0A]) State.reset) =
      some (.encoded [0xAA, 0x00, 0x27, 0x00, 0x03, 0x22, 0x00, 0x0A, 0x56, 0xDD]) := by decide
theorem test_encode_v19_wraps :
    outcome (exec (.opEncode 0x10 [0xF0]) State.reset) = some (.encoded [0xAA, 0x00, 0x10, 0x00, 0x01, 0xF0, 0x01, 0xDD]) := by decide
theorem test_decode_v48_misaligned :
    outcome (exec (.opDecode [0xAA, 0x01, 0x03, 0x00, 0x03, 0x10, 0x20, 0x36, 0xDD, 0xAA, 0x02, 0x22, 0x00, 0x00, 0x24, 0xDD, 0xAA, 0x01, 0x28, 0x00, 0x01, 0x00, 0x2A, 0xDD]) State.reset) =
      some (.decoded ⟨[⟨0x01, 0x03, [0x10, 0x20, 0x36], 0xDD, false⟩], .badHeader, 10,
        [0x02, 0x22, 0x00, 0x00, 0x24, 0xDD, 0xAA, 0x01, 0x28, 0x00, 0x01, 0x00, 0x2A, 0xDD]⟩) := by decide
theorem test_decode_v28_truncated :
    outcome (exec (.opDecode [0xAA, 0x01, 0x03, 0x00, 0x02, 0x00, 0x01, 0x07, 0xDD, 0xAA, 0x02, 0x22, 0x00, 0x00, 0x24]) State.reset) =
      some (.decoded ⟨[⟨0x01, 0x03, [0x00, 0x01], 0x07, true⟩], .truncatedFrame, 9, [0xAA, 0x02, 0x22, 0x00, 0x00, 0x24]⟩) := by decide
theorem test_inv_parse_v54_offsets :
    outcome (exec (.opInvParse [0x00, 0x01, 0x02, 0x03, 0x04, 0x05, 0x06, 0x07, 0x08, 0x09, 0x0A, 0x0B, 0x0C, 0x0D, 0x0E, 0x0F, 0x10]) State.reset) =
      some (.inventory ⟨0x00, 0x0102, [0x03, 0x04, 0x05, 0x06, 0x07, 0x08, 0x09, 0x0A, 0x0B, 0x0C, 0x0D, 0x0E], 0x0F10⟩) := by decide
theorem test_inv_parse_v51_short :
    outcome (exec (.opInvParse (v50.take 16)) State.reset) = some (.error (.payloadTooShort 16)) := by decide
theorem test_err_parse_v57 :
    outcome (exec (.opErrParse [0x17, 0x00, 0x00]) State.reset) = some (.failure ⟨some 0x17, errClass 0x17⟩) := rfl
theorem test_err_parse_v58 : outcome (exec (.opErrParse []) State.reset) = some (.failure ⟨none, .unknown⟩) := rfl

/-! The session: OPEN and CLOSE (R165, R185, V78), SEND (V71, V72), RECEIVE (V76, V77), READTAGS (V83, program P3's first
three frames). -/

theorem test_open_once : outcome (exec (.opOpen 1 5) State.reset) = some .opened ∧
    refusal (exec (.opOpen 1 5) (openState [] [] [])) = some .alreadyOpen := by decide
theorem test_close_error :
    outcome (exec .opClose (openState [] [] [.error])) = some (.error (.ioError .close)) ∧
    idle (exec .opClose (openState [] [] [.error])) = false ∧
    refusal (exec .opClose State.reset) = some .notOpen := by decide
theorem test_send_v71_short_write :
    outcome (exec (.opSend 0x22 []) (openState [.count 4] [] [])) = some (.error (.ioError (.shortWrite 4))) ∧
    wire (exec (.opSend 0x22 []) (openState [.count 4] [] [])) = [0xAA, 0x00, 0x22, 0x00] ∧
    idle (exec (.opSend 0x22 []) (openState [.count 4] [] [])) = true := by decide
theorem test_send_v70 :
    outcome (exec (.opSend 0x22 []) (openState [.count 7] [] [])) = some .ok ∧
    wire (exec (.opSend 0x22 []) (openState [.count 7] [] [])) = [0xAA, 0x00, 0x22, 0x00, 0x00, 0x22, 0xDD] := by decide
theorem test_receive_v76_chunks :
    outcome (exec .opReceive (openState [] [.chunk [0xAA], .chunk [0x01, 0x22, 0x00, 0x00, 0x23, 0xDD, 0xAA, 0x02],
      .chunk [0x22, 0x00, 0x00, 0x24, 0xDD], .chunk []] [])) =
      some (.received ⟨[⟨0x01, 0x22, [], 0x23, true⟩, ⟨0x02, 0x22, [], 0x24, true⟩], .endOfBuffer, []⟩) := by decide
theorem test_receive_v77_error :
    outcome (exec .opReceive (openState [] [.chunk [0xAA, 0x01, 0x22, 0x00, 0x00, 0x23, 0xDD], .error] [])) =
      some (.error (.ioError .read)) ∧
    idle (exec .opReceive (openState [] [.chunk [0xAA, 0x01, 0x22, 0x00, 0x00, 0x23, 0xDD], .error] [])) = true := by decide
theorem test_read_tags_v83_saturates :
    wire (exec (.opReadTags 1000) (openState [.count 10] [.chunk []] [])) = [0xAA, 0x00, 0x27, 0x00, 0x03, 0x22, 0x00, 0xFF, 0x4B, 0xDD] ∧
    outcome (exec (.opReadTags 1000) (openState [.count 10] [.chunk []] [])) =
      some (.tags ⟨[], none, 0, .endOfBuffer, []⟩) := by decide
theorem test_read_tags_p3 :
    outcome (exec (.opReadTags 300) (openState [.count 10]
      [.chunk [0xAA, 0x02, 0x22, 0x00, 0x11, 0xC7, 0x30, 0x00, 0xE2, 0x80, 0x68, 0x90, 0x00, 0x00, 0x50, 0x0E, 0x88, 0xC6, 0xA4, 0xA7, 0x11, 0x9B, 0x29, 0xDD],
       .chunk [0xAA, 0x02, 0x22, 0x00, 0x11, 0xC0, 0x30, 0x00, 0xE2, 0x80, 0x68, 0x90, 0x00, 0x00, 0x50, 0x0E, 0x88, 0xC6, 0xA4, 0xA7, 0x11, 0x9B, 0x22, 0xDD, 0xAA, 0x01, 0xFF, 0x00],
       .chunk [0x01, 0x15, 0x16, 0xDD, 0xAA, 0x02, 0x22], .chunk []] [])) =
      some (.tags ⟨[v50Report], some ⟨some 0x15, errClass 0x15⟩, 0, .truncatedFrame, [0xAA, 0x02, 0x22]⟩) := rfl

/-! The byte-serial receiver: the last phase of V60, and V61's `end` in phase TRL. -/

theorem test_serial_v60 :
    ([0xAA, 0x01, 0xFF, 0x00, 0x01, 0x15, 0x16, 0xDD].foldl Decoder.serialByte Decoder.reset).serialResult =
      ⟨[⟨0x01, 0xFF, [0x15], 0x16, true⟩], .endOfBuffer, 8, []⟩ := by decide
theorem test_serial_v61 :
    ([0xAA, 0x01, 0xFF, 0x00, 0x01, 0x15, 0x16].foldl Decoder.serialByte Decoder.reset).serialResult =
      ⟨[], .truncatedFrame, 0, [0xAA, 0x01, 0xFF, 0x00, 0x01, 0x15, 0x16]⟩ := by decide

/-! The space of a buffer as cells. -/

theorem test_cells : Memory.cells 0 [0xAA, 0x01] = [(0, 0xAA), (1, 0x01)] ∧ Memory.wf [(0, 0xAA), (2, 0x01)] = false := by decide

/-! ## Witnesses: for each obligation with hypotheses, what meets them. -/

theorem openState_inv (ws : List WriteAnswer) (rs : List ReadAnswer) (cs : List CloseAnswer) : (openState ws rs cs).Inv where
  busy := by simp [openState, State.reset]
  open_of_busy := by simp [openState]
  channel := by simp [openState]
  op := rfl
  clean := fun _ => ⟨rfl, rfl, rfl, rfl, rfl, rfl, rfl, rfl⟩
  cursor := Nat.le_refl 0
  extents := ⟨[], rfl, rfl⟩
  frames := ⟨by simp [openState, State.reset, Decoder.reset], by simp [openState, State.reset]⟩
  pool := ⟨⟨.nil, by simp [openState, State.reset, Tags.empty]⟩, by simp [openState, State.reset]⟩
  capacity := rfl
  outgoing := by simp [openState, State.reset]
  draining := fun _ => ⟨rfl, rfl⟩
  stop := fun _ => rfl
  phase := rfl
  serial := rfl

theorem openState_ready (ws : List WriteAnswer) (rs : List ReadAnswer) (cs : List CloseAnswer) : (openState ws rs cs).Ready :=
  ⟨openState_inv ws rs cs, rfl, rfl⟩

/-- The open session with a request presented. -/
def asked (q : Request) (ws : List WriteAnswer) : State := { openState ws [] [] with port := [q] }

theorem asked_inv (q : Request) (ws : List WriteAnswer) : (asked q ws).Inv := { openState_inv ws [] [] with }

/-- The open session while an operation is in flight. -/
def busyState : State := { openState [] [] [] with session := { channel := some 1, readTimeout := 5, sOpen := true, sBusy := true } }

theorem witness_StepKeepsTheInvariant :
    ∃ s t : State, s.Inv ∧ step s = .next t ∧ t.outcome = some .ok :=
  ⟨asked { opsel := 4, cmd := 0x22 } [.count 7], _, asked_inv _ _, rfl, rfl⟩

theorem witness_ChecksumByAccumulatorInAnyOrder : ([1, 2] : List Byte).Perm [2, 1] := by decide

theorem witness_OneChangedByteChangesTheChecksum : (0x00 : Byte) ≠ 0xFF := by decide

theorem witness_EncodeAnswersTheFrameOrAnError : maxParams.length ≤ 65535 ∧ 65535 < longParams.length := by
  rw [maxParams_length, longParams_length]; decide

theorem witness_EncodeResultFields : maxParams.length ≤ 65535 ∧ ([] : List Byte).length ≤ 65535 := by
  rw [maxParams_length]; decide

theorem witness_DecodeStopsOnAnEncodedFrame : maxParams.length ≤ 65535 := by rw [maxParams_length]

/-- A decoder with these bytes and this cursor. -/
def decoderAt (cursor : Nat) (bytes : List Byte) : Decoder := { Decoder.reset with rxbuf := bytes, cursor := cursor }

theorem witness_Decode1FollowsItsTests_endOfBuffer :
    (decoderAt 2 [1, 2]).cursor ≤ (decoderAt 2 [1, 2]).rxbuf.length ∧ (decoderAt 2 [1, 2]).rxbuf.length - (decoderAt 2 [1, 2]).cursor = 0 := by decide
theorem witness_Decode1FollowsItsTests_header :
    (decoderAt 1 [1, 0xAB]).rxbuf[1]? = some 0xAB ∧ (0xAB : Byte) ≠ 0xAA := by decide
theorem witness_Decode1FollowsItsTests_noType :
    (decoderAt 1 [1, 0xAA]).rxbuf[1]? = some 0xAA ∧ (decoderAt 1 [1, 0xAA]).rxbuf.length - 1 < 2 := by decide
theorem witness_Decode1FollowsItsTests_type :
    (decoderAt 0 [0xAA, 0x00]).rxbuf[0]? = some 0xAA ∧ (decoderAt 0 [0xAA, 0x00]).rxbuf[0 + 1]? = some 0x00 ∧
    (decoderAt 0 [0xAA, 0x03]).rxbuf[0 + 1]? = some 0x03 := by decide
theorem witness_Decode1FollowsItsTests_noPrefix :
    (decoderAt 0 [0xAA, 0x02, 0x22, 0x00]).rxbuf[0 + 1]? = some 0x02 ∧ (decoderAt 0 [0xAA, 0x02, 0x22, 0x00]).rxbuf.length - 0 < 5 := by
  decide
theorem witness_Decode1FollowsItsTests_short :
    (decoderAt 0 [0xAA, 0x01, 0x22, 0x00, 0x01, 0x05, 0x29]).rxbuf[0 + 4]? = some 0x01 ∧
    (decoderAt 0 [0xAA, 0x01, 0x22, 0x00, 0x01, 0x05, 0x29]).rxbuf.length - 0 < 1 + 7 := by decide
theorem witness_Decode1FollowsItsTests_whole :
    (decoderAt 0 [0xAA, 0x01, 0x22, 0x00, 0x01, 0x05, 0x29, 0xDD]).rxbuf[0 + 4]? = some 0x01 ∧
    1 + 7 ≤ (decoderAt 0 [0xAA, 0x01, 0x22, 0x00, 0x01, 0x05, 0x29, 0xDD]).rxbuf.length - 0 := by decide
theorem witness_Decode1FollowsItsTests_stop : (decoderAt 1 [1, 0xAB]).decode1.2 = some .badHeader := by decide

/-- The frame of S3 decodes to the end of its buffer; two frames, one of no parameters and one of the most. -/
theorem witness_DecodeOfAConcatenation :
    decodeBuffer [0xAA, 0x01, 0x22, 0x00, 0x00, 0x23, 0xDD] = ⟨[⟨0x01, 0x22, [], 0x23, true⟩], .endOfBuffer, 7, []⟩ ∧
    ∀ f ∈ ([(0x01, 0x22, []), (0x02, 0x03, maxParams)] : List (Byte × Byte × List Byte)),
      (f.1 = 0x01 ∨ f.1 = 0x02) ∧ f.2.2.length ≤ 65535 := by
  refine ⟨by decide, ?_⟩
  intro f hf
  rcases List.mem_cons.1 hf with rfl | hf
  · decide
  · cases List.mem_singleton.1 hf
    exact ⟨.inr rfl, by rw [maxParams_length]⟩

theorem witness_DecodeOfACorruptOrCutFrame :
    ((0x01 : Byte) = 0x01 ∨ (0x01 : Byte) = 0x02) ∧ ([0x00, 0x01] : List Byte).length ≤ 65535 ∧
    (([0x00, 0x01] : List Byte)[1]? ≠ some 0x00 ∧ 1 < ([0x00, 0x01] : List Byte).length) ∧ (0x04 : Byte) ≠ 0x03 ∧
    (0x00 : Byte) ≠ frameChecksum 0x01 0x03 [0x00, 0x01] ∧ (0x00 : Byte) ≠ 0xAA ∧
    ((0x00 : Byte) ≠ 0x01 ∧ (0x00 : Byte) ≠ 0x02) ∧ (((0x02 : Byte) = 0x01 ∨ (0x02 : Byte) = 0x02) ∧ (0x02 : Byte) ≠ 0x01) ∧
    (1 ≤ 1 ∧ 1 ≤ ([0x00, 0x01] : List Byte).length + 6) ∧ (1 ≤ 8 ∧ 8 ≤ ([0x00, 0x01] : List Byte).length + 6) := by decide

/-- A RECEIVE at a `read` that has heard these bytes, with these answers to come. -/
def reading (bytes : List Byte) (rs : List ReadAnswer) : State :=
  { (openState [] rs []).startReceive with
    dec := { Decoder.reset with rxbuf := bytes }, ser := bytes.foldl Decoder.serialByte Decoder.reset }

theorem reading_inv (bytes : List Byte) (rs : List ReadAnswer) : (reading bytes rs).Inv where
  busy := by simp [reading, openState]
  open_of_busy := by simp [reading, openState]
  channel := by simp [reading, openState]
  op := .inl rfl
  clean := by simp [reading]
  cursor := Nat.zero_le _
  extents := ⟨[], rfl, rfl⟩
  frames := ⟨by simp [reading, Decoder.reset], by simp [reading, openState, State.reset]⟩
  pool := ⟨⟨.nil, by simp [reading, openState, State.reset, Tags.empty]⟩, by simp [reading]⟩
  capacity := rfl
  outgoing := by simp [reading]
  draining := fun _ => ⟨rfl, rfl⟩
  stop := fun _ => rfl
  phase := rfl
  serial := rfl

theorem witness_SerialReceiverEqualsDecode :
    (Decoder.reset.dPhase = .hdr ∧ Decoder.reset.cursor = 0 ∧ Decoder.reset.frames = [] ∧ Decoder.reset.rxbuf = []) ∧
    (reading [0xAA, 0x01] [.chunk []]).Inv ∧ (reading [0xAA, 0x01] [.chunk []]).port = [] ∧
    (reading [0xAA, 0x01] [.chunk []]).op = some .receive ∧ (reading [0xAA, 0x01] [.chunk []]).point = .read ∧
    (reading [0xAA, 0x01] [.chunk []]).chan.reads = .chunk [] :: [] :=
  ⟨⟨rfl, rfl, rfl, rfl⟩, reading_inv _ _, rfl, rfl, rfl, rfl⟩

theorem witness_SerialReceiverFollowsItsTable (p : Phase) :
    ({ Decoder.reset with dPhase := p } : Decoder).dPhase = p ∧
    (reading [0xAA] [.chunk [0x01]]).port = [] ∧ (reading [0xAA] [.chunk [0x01]]).point = .read ∧
    (reading [0xAA] [.chunk [0x01]]).chan.reads = .chunk (0x01 :: []) :: [] ∧
    exceeds (reading [0xAA] [.chunk [0x01]]).rxbufCap ((reading [0xAA] [.chunk [0x01]]).rxlen + (([] : List Byte).length + 1)) =
      false ∧
    (reading [] [.chunk []]).chan.reads = .chunk [] :: [] := ⟨rfl, rfl, rfl, rfl, rfl, rfl⟩

theorem witness_CommandFramesEndTheLoop :
    (loopState 0 []).op = some .receive ∧ { loopState 0 [] with op := some .readTags }.op = some .readTags := ⟨rfl, rfl⟩

theorem witness_InvParseReadsTheFields : 17 ≤ v50.length ∧ (v50.take 16).length < 17 := by decide

theorem witness_PureOperationsDependOnNoState : ∃ b, Instr.opDecode [0xAA] = .opDecode b := ⟨_, rfl⟩

theorem witness_SinglePollCollectsNewTags :
    (v50.take 16).length < 17 ∧ inventoryReport v50 = .ok v50Report ∧
    (∀ e ∈ State.reset.tags.pool, e.identifier ≠ v50Report.identifier) ∧
    (∃ e ∈ ({ State.reset with tags := { Tags.empty with pool := [v50Report] } } : State).tags.pool,
      e.identifier = v50Report.identifier) := by decide

theorem witness_OpenTakesTheChannel : State.reset.session.sOpen = false ∧ busyState.session.sOpen = true := ⟨rfl, rfl⟩

theorem witness_CloseEndsTheSession :
    (openState [] [] [.error]).Ready ∧ (openState [] [] [.error]).chan.closes = .error :: [] ∧
    (openState [] [] []).Ready ∧ (openState [] [] []).chan.closes = [] :=
  ⟨openState_ready _ _ _, rfl, openState_ready _ _ _, rfl⟩

theorem witness_SendWritesTheWholeFrame :
    (openState [.count (maxParams.length + 7)] [] []).Ready ∧ maxParams.length ≤ 65535 ∧
    (openState [.count (maxParams.length + 7)] [] []).chan.writes = .count (maxParams.length + 7) :: [] :=
  ⟨openState_ready _ _ _, by rw [maxParams_length], rfl⟩

theorem witness_SendFailsWithoutRetry :
    ((openState [] [] []).Ready ∧ 65535 < longParams.length) ∧
    ((openState [.count 6] [] []).Ready ∧ (openState [.count 6] [] []).chan.writes = .count 6 :: [] ∧
      6 < ([] : List Byte).length + 7) ∧
    ((openState [.error 7] [] []).Ready ∧ (openState [.error 7] [] []).chan.writes = .error 7 :: [] ∧
      7 ≤ ([] : List Byte).length + 7) :=
  ⟨⟨openState_ready _ _ _, by rw [longParams_length]; decide⟩, ⟨openState_ready _ _ _, rfl, by decide⟩,
    ⟨openState_ready _ _ _, rfl, by decide⟩⟩

/-- A drain of two chunks that this answer ends. -/
def draining (a : ReadAnswer) : State := openState [.count 10] [.chunk [0xAA, 0x01], .chunk [0x22], a, .chunk [0x00]] []

theorem draining_drains (a : ReadAnswer) : (draining a).drains [[0xAA, 0x01], [0x22]] := ⟨by decide, rfl⟩

theorem witness_ReceiveDecodesTheDrainedBytes :
    (draining (.chunk [])).Ready ∧ (draining (.chunk [])).drains [[0xAA, 0x01], [0x22]] ∧
    (draining (.chunk [])).chan.reads = [[0xAA, 0x01], [0x22]].map .chunk ++ .chunk [] :: [.chunk [0x00]] :=
  ⟨openState_ready _ _ _, draining_drains _, rfl⟩

theorem witness_ReceiveDropsBytesOnAReadError :
    (draining .error).Ready ∧ (draining .error).drains [[0xAA, 0x01], [0x22]] ∧
    (draining .error).chan.reads = [[0xAA, 0x01], [0x22]].map .chunk ++ .error :: [.chunk [0x00]] :=
  ⟨openState_ready _ _ _, draining_drains _, rfl⟩

/-- Room for three bytes, and a fourth comes. -/
def full : State := { draining (.chunk [0x00]) with rxbufCap := some 3 }

theorem witness_ReceiveOverflowLeavesTheBlockIdle :
    full.Ready ∧ full.drains [[0xAA, 0x01], [0x22]] ∧
    exceeds full.rxbufCap (([[0xAA, 0x01], [0x22]] : List (List Byte)).flatten.length + (([] : List Byte).length + 1)) = true ∧
    full.chan.reads = [[0xAA, 0x01], [0x22]].map .chunk ++ .chunk (0x00 :: []) :: [.chunk [0x00]] ∧
    full.chan.writes = .count 10 :: [] :=
  ⟨⟨{ openState_inv [.count 10] (draining (.chunk [0x00])).chan.reads [] with capacity := rfl }, rfl, rfl⟩, ⟨by decide, rfl⟩, rfl, rfl, rfl⟩

theorem witness_ReceiveEndsWhenTheChannelEndsIt :
    ∃ t, (draining .error).Ready ∧ (draining .error).rxbufCap = none ∧ exec .opReceive (draining .error) = .next t :=
  ⟨_, openState_ready _ _ _, rfl, rfl⟩

theorem witness_OperationsWaitForTheChannel :
    (openState [] [.chunk [0xAA]] []).Ready ∧ (openState [] [.chunk [0xAA]] []).chan.writes = [] ∧ maxParams.length ≤ 65535 ∧
    (openState [] [.chunk [0xAA]] []).drains [[0xAA]] ∧ (openState [] [.chunk [0xAA]] []).chan.reads = [[0xAA]].map .chunk ∧
    (openState [.count 10] [.chunk [0xAA]] []).Ready ∧ (openState [.count 10] [.chunk [0xAA]] []).chan.writes = .count 10 :: [] ∧
    (openState [.count 10] [.chunk [0xAA]] []).chan.reads = [[0xAA]].map .chunk :=
  ⟨openState_ready _ _ _, rfl, by rw [maxParams_length], ⟨by decide, rfl⟩, rfl, openState_ready _ _ _, rfl, rfl⟩

theorem witness_SessionPreconditions :
    State.reset.session.sOpen = false ∧ (busyState.session.sOpen = true ∧ busyState.session.sBusy = true) ∧
    ((openState [] [] []).session.sOpen = true ∧ (openState [] [] []).session.sBusy = false) := by decide

theorem witness_ReadTagsCollectsTheBatch :
    (draining (.chunk [])).Ready ∧ (draining (.chunk [])).drains [[0xAA, 0x01], [0x22]] ∧
    (draining (.chunk [])).chan.writes = .count 10 :: [] ∧
    (draining (.chunk [])).chan.reads = [[0xAA, 0x01], [0x22]].map .chunk ++ .chunk [] :: [.chunk [0x00]] :=
  ⟨openState_ready _ _ _, draining_drains _, rfl, rfl⟩

theorem witness_ReadTagsReturnsChannelErrors :
    ((openState [.count 9] [] []).Ready ∧ (openState [.count 9] [] []).chan.writes = .count 9 :: [] ∧ 9 < 10) ∧
    ((openState [.error 10] [] []).Ready ∧ (openState [.error 10] [] []).chan.writes = .error 10 :: [] ∧ 10 ≤ 10) ∧
    ((draining .error).Ready ∧ (draining .error).drains [[0xAA, 0x01], [0x22]] ∧
      (draining .error).chan.writes = .count 10 :: [] ∧
      (draining .error).chan.reads = [[0xAA, 0x01], [0x22]].map .chunk ++ .error :: [.chunk [0x00]]) ∧
    (∃ t, exec (.opReadTags 300) (draining .error) = .next t) :=
  ⟨⟨openState_ready _ _ _, rfl, by decide⟩, ⟨openState_ready _ _ _, rfl, by decide⟩,
    ⟨openState_ready _ _ _, draining_drains _, rfl, rfl⟩, ⟨_, rfl⟩⟩

theorem witness_DecodeUndoesEncode : (Instr.frameResponse 0x22 maxParams 0 0).wf = true := paramsFit_max

theorem witness_DecodingAgreesWithTheTable :
    decode (.frame [0xAA, 0x01, 0x22, 0x00, 0x00, 0x23, 0xDD]) = .ok (.frameResponse 0x22 [] 0x23 0xDD) ∧
    decode (.command 0xFE []) = .error (.unlistedOpcode 0xFE) ∧ decode (.request { opsel := 9 }) = .error (.badOpsel 9) := by
  decide

theorem witness_StepRunsTheFetchedInstruction_request :
    (asked { opsel := 8, rounds := 3 } []).port = { opsel := 8, rounds := 3 } :: [] ∧
    decode (.request { opsel := 8, rounds := 3 }) = .ok (.opReadTags 3) ∧
    (asked { opsel := 9 } []).port = { opsel := 9 } :: [] ∧ 9 ≤ ({ opsel := 9 } : Request).opsel.toNat := by decide
theorem witness_StepRunsTheFetchedInstruction_frame :
    (loopState 1 [1, 0xAA, 0x01, 0x22, 0x00, 0x00, 0x23, 0xDD]).port = [] ∧
    (loopState 1 [1, 0xAA, 0x01, 0x22, 0x00, 0x00, 0x23, 0xDD]).point = .decode ∧
    decode (.frame ([1, 0xAA, 0x01, 0x22, 0x00, 0x00, 0x23, 0xDD].drop 1)) = .ok (.frameResponse 0x22 [] 0x23 0xDD) := by decide
theorem witness_StepRunsTheFetchedInstruction_command :
    ∃ (s : State) (f : Frame) (fs : List Frame), s.port = [] ∧ s.point = .dispatch ∧ s.batch = f :: fs ∧
      decode (.command f.command f.parameters) = .ok (.singlePoll v50) :=
  ⟨{ loopState 0 [] with point := .dispatch, batch := [⟨0x02, 0x22, v50, 0x29, true⟩] }, _, _, rfl, rfl, rfl, by decide⟩

theorem witness_SmallStepsReachTheOperationsResult :
    (draining .error).port = [] ∧ (draining .error).sessionRefusal = none := by decide

theorem witness_WorkingRegistersAreUnobservable :
    ∃ s t : State, s ≠ t ∧ s.eraseWork = t.eraseWork :=
  ⟨State.reset, { State.reset with dec := { Decoder.reset with dAcc := 1 } }, by decide, rfl⟩

theorem witness_FaultsOnlyOutsideTheChannelContract :
    (∃ f, step (asked { opsel := 4, cmd := 0x22 } [.count 8]) = .fault f) ∧
    (∃ f, step (asked { opsel := 8 } [.error 11]) = .fault f) ∧
    (∃ f, step { openState [.count 3] [] [] with point := .write, enc := { Encoder.reset with txbuf := [1, 2] } } = .fault f) :=
  ⟨⟨_, rfl⟩, ⟨_, rfl⟩, ⟨_, rfl⟩⟩

theorem witness_RefusalsHaveTheirReasons :
    refusal (step (asked { opsel := 9 } [])) = some .badOpsel ∧ refusal (step (asked { opsel := 0 } [])) = some .alreadyOpen ∧
    refusal (step { State.reset with port := [{ opsel := 5 }] }) = some .notOpen ∧
    refusal (step { busyState with port := [{ opsel := 1 }] }) = some .busy := by decide

theorem witness_OnlyOpenAndCloseChangeTheSession : ∃ t, step (asked { opsel := 1 } []) = .next t := ⟨_, rfl⟩

theorem witness_OnlyCommandFramesReachTheWire :
    ∃ s t : State, s.Inv ∧ step s = .next t ∧ t.chan.wire = [0xAA, 0x00, 0x22] :=
  ⟨asked { opsel := 4, cmd := 0x22 } [.count 3], _, asked_inv _ _, rfl, rfl⟩

end Sys2Proof.Tests
end

/-! PROOFS. What the three sources of instructions give (spec/30_encoding.md R87, R90; spec/41_decode.md R122;
spec/43_session.md R175). -/

namespace Sys2Proof.Machine

open Config

/-- Every host operation a request can select (R90). -/
theorem decodeRequest_cases {q : Request} {i : Instr} (h : decodeRequest q = some i) :
    (q.opsel.toNat = 0 ∧ i = .opOpen q.channel q.timeout) ∨ (q.opsel.toNat = 1 ∧ i = .opClose) ∨
    (q.opsel.toNat = 2 ∧ i = .opEncode q.cmd q.bytes) ∨ (q.opsel.toNat = 3 ∧ i = .opDecode q.bytes) ∨
    (q.opsel.toNat = 4 ∧ i = .opSend q.cmd q.bytes) ∨ (q.opsel.toNat = 5 ∧ i = .opReceive) ∨
    (q.opsel.toNat = 6 ∧ i = .opInvParse q.bytes) ∨ (q.opsel.toNat = 7 ∧ i = .opErrParse q.bytes) ∨
    (q.opsel.toNat = 8 ∧ i = .opReadTags q.rounds) := by
  unfold decodeRequest at h
  split at h <;> cases h <;> simp [*]

/-- A listed command does to READTAGS's accumulation what the dispatch of its frame does (R175). -/
theorem exec_of_decodeCommand {f : Frame} {i : Instr} (h : decodeCommand f.command f.parameters = some i) (s : State) :
    exec i s = .next { s with tags := s.tags.dispatch f } := by
  unfold decodeCommand at h
  repeat' split at h
  all_goals cases h
  all_goals
    rename_i hf
    simp only [exec, Tags.dispatch, hf]
    rfl

/-- A whole command frame at CURSOR ends the decode loop with BadType (R122). -/
theorem exec_toInstr_command {w : WireFrame} (h : w.type = .command) (s : State) :
    exec w.toInstr s = .next ({ s with dec := { s.dec with dType := TYPE_COMMAND } }.endDecode .badType) := by
  unfold WireFrame.toInstr; rw [h]; rfl

/-- A whole response or notification at CURSOR is accepted (R124, R125). -/
theorem exec_toInstr_accepted {w : WireFrame} (h : w.type ≠ .command) (s : State) :
    exec w.toInstr s = .next { s with dec := s.dec.accept w } := by
  obtain ⟨type, c, p, cs, tr⟩ := w
  cases type with
  | command => exact absurd rfl h
  | response => rfl
  | notification => rfl

/-- Going on ends in a next state only from a next state. -/
theorem andThen_eq_next {o : Host.Outcome State Fault Refusal} {f : State → State} {t : State} (h : andThen o f = .next t) :
    ∃ u, o = .next u ∧ t = f u := by
  cases o with
  | next u => cases h; exact ⟨u, rfl, rfl⟩
  | fault r => cases h
  | refused r => cases h

/-- ENCODE, DECODE, INVPARSE or ERRPARSE (spec/43_session.md R186). -/
def PureOp (i : Instr) : Prop :=
  (∃ c p, i = .opEncode c p) ∨ (∃ b, i = .opDecode b) ∨ (∃ p, i = .opInvParse p) ∨ (∃ p, i = .opErrParse p)

/-- A pure operation hands over an outcome that is no READTAGS result, and changes nothing else (spec/43_session.md R186). -/
theorem exec_pure {i : Instr} (h : PureOp i) :
    ∃ r, (∀ tags, r ≠ .tags tags) ∧ ∀ s, exec i s = .next (s.answer r) := by
  rcases h with ⟨c, p, rfl⟩ | ⟨b, rfl⟩ | ⟨p, rfl⟩ | ⟨p, rfl⟩
  · show ∃ r, (∀ tags, r ≠ .tags tags) ∧ ∀ s, execEncode c p s = .next (s.answer r)
    unfold execEncode
    split
    · exact ⟨_, by simp, fun _ => rfl⟩
    · exact ⟨_, by simp, fun _ => rfl⟩
  · exact ⟨_, by simp, fun _ => rfl⟩
  · show ∃ r, (∀ tags, r ≠ .tags tags) ∧ ∀ s, execInvParse p s = .next (s.answer r)
    unfold execInvParse
    split
    · exact ⟨_, by simp, fun _ => rfl⟩
    · exact ⟨_, by simp, fun _ => rfl⟩
  · exact ⟨_, by simp, fun _ => rfl⟩

/-- Everything a request can do that goes on: OPEN, CLOSE, a pure operation, SEND, RECEIVE, READTAGS (spec/43_session.md
R165, R167, R170, R174, R185, R186). -/
theorem exec_request_cases {q : Request} {i : Instr} {s t : State} (hi : decodeRequest q = some i)
    (h : exec i s = .next t) :
    (q.opsel.toNat = 0 ∧ s.session.sOpen = false ∧
      t = State.answer .opened { s with session := ⟨some q.channel, q.timeout, true, false⟩ }) ∨
    (q.opsel.toNat = 1 ∧ s.sessionRefusal = none ∧ t = s.closeChannel) ∨
    (∃ r, (∀ tags, r ≠ .tags tags) ∧ t = s.answer r) ∨
    (q.opsel.toNat = 4 ∧ s.sessionRefusal = none ∧ (s.start .send .write).sendFrame q.cmd q.bytes = .next t) ∨
    (q.opsel.toNat = 5 ∧ s.sessionRefusal = none ∧ t = s.startReceive.runReceive) ∨
    (q.opsel.toNat = 8 ∧ s.sessionRefusal = none ∧ ∃ u,
      (s.start .readTags .write).sendFrame OP_MULTI_POLL (multiPollParams q.rounds) = .next u ∧ t = u.runReceive) := by
  have of_pure : PureOp i →
      ∃ r, (∀ tags, r ≠ .tags tags) ∧ t = s.answer r := fun hpure => by
    obtain ⟨r, hr, he⟩ := exec_pure hpure
    rw [he] at h; cases h; exact ⟨r, hr, rfl⟩
  rcases decodeRequest_cases hi with ⟨hq, rfl⟩ | ⟨hq, rfl⟩ | ⟨_, rfl⟩ | ⟨_, rfl⟩ | ⟨hq, rfl⟩ | ⟨hq, rfl⟩ | ⟨_, rfl⟩ |
    ⟨_, rfl⟩ | ⟨hq, rfl⟩
  · simp only [exec, execOpen] at h
    split at h
    · cases h
    · next hc => cases h; exact .inl ⟨hq, by simpa using hc, rfl⟩
  · simp only [exec, execClose] at h
    split at h
    · cases h
    · next hr => cases h; exact .inr (.inl ⟨hq, hr, rfl⟩)
  · exact .inr (.inr (.inl (of_pure (.inl ⟨_, _, rfl⟩))))
  · exact .inr (.inr (.inl (of_pure (.inr (.inl ⟨_, rfl⟩)))))
  · simp only [exec, execSend] at h
    split at h
    · cases h
    · next hr => exact .inr (.inr (.inr (.inl ⟨hq, hr, h⟩)))
  · simp only [exec, execReceive] at h
    split at h
    · cases h
    · next hr => cases h; exact .inr (.inr (.inr (.inr (.inl ⟨hq, hr, rfl⟩))))
  · exact .inr (.inr (.inl (of_pure (.inr (.inr (.inl ⟨_, rfl⟩))))))
  · exact .inr (.inr (.inl (of_pure (.inr (.inr (.inr ⟨_, rfl⟩))))))
  · simp only [exec, execReadTags] at h
    split at h
    · cases h
    · next hr => exact .inr (.inr (.inr (.inr (.inr ⟨hq, hr, andThen_eq_next h⟩))))

end Sys2Proof.Machine

/-! PROOFS. Every step keeps the invariant (spec/10_state.md R23, R26, R27, R31, R40; spec/41_decode.md R131). The shared
operations keep it one by one; the instructions and the moves of the loops are made of them. -/

namespace Sys2Proof

open Config

@[simp] theorem WireFrame.bytes_length (w : WireFrame) : w.bytes.length = w.parameters.length + 7 := by
  simp [WireFrame.bytes]

/-- What the decoder reads a frame from begins with the frame's bytes. -/
theorem decodeFrame_ok {bs : List Byte} {w : WireFrame} (h : decodeFrame bs = .ok w) :
    w.parameters.length ≤ MAX_PARAM_LEN ∧ ∃ more, bs = w.bytes ++ more := by
  unfold decodeFrame at h
  repeat' split at h
  all_goals cases h
  rename_i hb
  obtain ⟨hp, more, rfl⟩ := takeBody_eq_some.1 hb
  exact ⟨hp, more, by simp [WireFrame.bytes, *, FrameType.ofByte_eq_some ‹_›]⟩

end Sys2Proof

namespace Sys2Proof.Machine

open Config

/-! Frames and their extents. -/

theorem extents_nil : Extents [] [] := ⟨[], rfl, rfl⟩

theorem extents_append {fs gs : List Frame} {bs cs : List Byte} (hf : Extents fs bs) (hg : Extents gs cs) :
    Extents (fs ++ gs) (bs ++ cs) := by
  obtain ⟨ts, hts, rfl⟩ := hf
  obtain ⟨us, hus, rfl⟩ := hg
  refine ⟨ts ++ us, by simp [hts, hus], ?_⟩
  rw [List.zipWith_append hts.symm, List.flatten_append]

/-- A frame on the wire is the extent of the Frame made of it (R27). -/
theorem extents_frameOf (w : WireFrame) : Extents [frameOf w] w.bytes := ⟨[w.trailer], rfl, by
  simp [Frame.extent, frameOf, WireFrame.bytes]⟩

theorem frameOf_wf {w : WireFrame} (hp : w.parameters.length ≤ MAX_PARAM_LEN) (ht : w.type ≠ .command) :
    (frameOf w).wf := by
  obtain ⟨type, c, p, cs, tr⟩ := w
  cases type with
  | command => exact absurd rfl ht
  | response => exact ⟨.inl rfl, hp, rfl⟩
  | notification => exact ⟨.inr rfl, hp, rfl⟩

/-! The pool (R31). -/

theorem poolOk_nil : PoolOk [] := ⟨.nil, by simp⟩

theorem inventoryReport_identifier_length {p : List Byte} {rep : InventoryReport} (h : inventoryReport p = .ok rep) :
    rep.identifier.length = ID_LEN := by
  rcases inventoryReport_cases p with ⟨_, he⟩ | ⟨hp, rep', he, hid⟩
  · rw [he] at h; cases h
  · rw [he] at h; cases h; rw [hid]; simp; omega

theorem Tags.dispatch_poolOk {t : Tags} (h : PoolOk t.pool) (f : Frame) : PoolOk (t.dispatch f).pool := by
  rcases t.dispatch_cases f with ⟨_, hd⟩ | ⟨_, hd⟩ | ⟨_, _, hd⟩
  · rw [hd]
    rcases t.inventory_cases f.parameters with ⟨_, hi⟩ | ⟨rep, hrep, ⟨_, hi⟩ | ⟨hnew, hi⟩⟩
    · rw [hi]; exact h
    · rw [hi]; exact h
    · rw [hi]
      obtain ⟨hdistinct, hlen⟩ := h
      constructor
      · simpa [List.pairwise_append, hdistinct] using hnew
      · intro r hr
        rcases List.mem_append.1 hr with hr | hr
        · exact hlen r hr
        · cases List.mem_singleton.1 hr; exact inventoryReport_identifier_length hrep
  · rw [hd]; exact h
  · rw [hd]; exact h

theorem Tags.foldl_dispatch_poolOk {t : Tags} (h : PoolOk t.pool) (fs : List Frame) :
    PoolOk (fs.foldl Tags.dispatch t).pool := by
  induction fs generalizing t with
  | nil => exact h
  | cons f fs ih => exact ih (Tags.dispatch_poolOk h f)

/-! The drain. -/

/-- What a drain adds to the buffer comes after what stands there. -/
theorem drain_prefix {cap : Option Nat} {buf b : List Byte} {rs : List ReadAnswer}
    (h : (drain cap buf rs).1 = .waiting b ∨ (drain cap buf rs).1 = .done b) : buf <+: b := by
  induction rs generalizing buf with
  | nil => simp [drain] at h; rw [h]
  | cons a rs ih =>
    match a with
    | .error => simp [drain] at h
    | .chunk [] => simp [drain] at h; rw [h]
    | .chunk (x :: xs) =>
      simp only [drain] at h
      split at h
      · simp at h
      · exact (List.prefix_append _ _).trans (ih h)

/-- The byte-serial form that has heard RXBUF has heard the longer buffer after its new bytes (spec/41_decode.md R135). -/
theorem State.hear_ser_of_prefix {s : State} {b : List Byte} (hp : s.dec.rxbuf <+: b)
    (hs : s.ser = s.dec.rxbuf.foldl Decoder.serialByte Decoder.reset) :
    (s.hear b).ser = b.foldl Decoder.serialByte Decoder.reset := by
  obtain ⟨more, rfl⟩ := hp
  simp [State.rxlen, hs]

namespace State.Inv

/-! The parts of the state that the invariant does not speak of, or only in part. -/

theorem with_port {s : State} (h : s.Inv) (qs : List Request) : State.Inv { s with port := qs } := { h with }

theorem with_chan {s : State} (h : s.Inv) (c : Channel) : State.Inv { s with chan := c } := { h with }

theorem with_batch {s : State} (h : s.Inv) (hp : s.point ≠ .idle) {fs : List Frame} (hfs : ∀ f ∈ fs, f.wf) :
    State.Inv { s with batch := fs } :=
  { h with clean := fun hi => absurd hi hp, frames := ⟨h.frames.1, hfs⟩ }

theorem with_tags {s : State} (h : s.Inv) (hp : s.point ≠ .idle) {t : Tags} (ht : PoolOk t.pool) :
    State.Inv { s with tags := t } :=
  { h with clean := fun hi => absurd hi hp, pool := ⟨ht, h.pool.2⟩ }

/-- The decoder's working registers may hold anything (R39). -/
theorem with_dec {s : State} (h : s.Inv) {d : Decoder} (hx : d.rxbuf = s.dec.rxbuf) (hc : d.cursor = s.dec.cursor)
    (hf : d.frames = s.dec.frames) (hs : d.stop = s.dec.stop) (hp : d.dPhase = s.dec.dPhase) :
    State.Inv { s with dec := d } := by
  obtain ⟨rxbuf, cursor, frames, stop, ty, cmd, len, cnt, acc, cs, phase, pbuf⟩ := d
  cases hx; cases hc; cases hf; cases hs; cases hp
  exact { h with }

/-- An outcome handed over that has no pool in it. -/
theorem answer {s : State} (h : s.Inv) {r : OpOutcome} (hr : ∀ tags, r ≠ .tags tags) : (s.answer r).Inv :=
  { h with pool := ⟨h.pool.1, fun tags ht => absurd (Option.some.inj ht) (hr tags)⟩ }

/-! The ends of an operation. -/

/-- An operation that ends leaves the invariant: of the state before it, only what outlives it counts (R34). -/
theorem of_conclude {s : State} (hc : s.session.sOpen = true ↔ s.session.channel.isSome = true)
    (hp : s.dec.dPhase = .hdr) {r : OpOutcome} (hr : ∀ tags, r = .tags tags → PoolOk tags.pool) :
    (s.conclude r).Inv where
  busy := by simp
  open_of_busy := by simp
  channel := hc
  op := rfl
  clean := fun _ => ⟨rfl, rfl, rfl, rfl, rfl, rfl, rfl, rfl⟩
  cursor := Nat.le_refl 0
  extents := extents_nil
  frames := ⟨by simp, by simp⟩
  pool := ⟨poolOk_nil, fun tags ht => hr tags (Option.some.inj ht)⟩
  capacity := exceeds_zero _
  outgoing := by simp
  draining := by simp
  stop := fun _ => rfl
  phase := hp
  serial := rfl

theorem conclude {s : State} (h : s.Inv) {r : OpOutcome} (hr : ∀ tags, r = .tags tags → PoolOk tags.pool) :
    (s.conclude r).Inv := of_conclude h.channel h.phase hr

theorem raise {s : State} (h : s.Inv) (e : OpError) : (s.raise e).Inv := h.conclude (by simp)

theorem endTags {s : State} (h : s.Inv) : s.endTags.Inv :=
  h.conclude fun tags ht => by cases ht; exact h.pool.1

theorem endDecode {s : State} (h : s.Inv) (hp : s.point = .decode) (r : StopReason) : (s.endDecode r).Inv := by
  by_cases ho : s.op = some .readTags
  · have hb : s.session.sBusy = true := h.busy.2 (by simp [hp])
    rw [State.endDecode_readTags r ho]
    exact {
      busy := by simp [hb]
      open_of_busy := h.open_of_busy
      channel := h.channel
      op := ho
      clean := by simp
      cursor := Nat.le_refl 0
      extents := extents_nil
      frames := ⟨by simp, h.frames.1⟩
      pool := ⟨poolOk_nil, h.pool.2⟩
      capacity := exceeds_zero _
      outgoing := by simp
      draining := by simp
      stop := by simp
      phase := h.phase
      serial := rfl }
  · rw [State.endDecode_receive r ho]
    exact of_conclude h.channel h.phase (by simp)

theorem closeChannel {s : State} (h : s.Inv) : s.closeChannel.Inv := by
  refine of_conclude
    (s := { s with session := { s.session with channel := none, sOpen := false }, chan := s.chan.closed })
    (by simp) h.phase ?_
  intro tags ht
  split at ht <;> cases ht

/-! The start of an operation and its `write`. -/

/-- Between operations, a session operation starts at a call of the channel that it has (spec/43_session.md R167, R170,
R174), with what it writes in TXBUF. -/
theorem start {s : State} (h : s.Inv) (hidle : s.point = .idle) (hopen : s.session.sOpen = true) {o : SessionOp} {p : Point}
    (hp : p = .write ∨ p = .read) (ho : OpAt p (some o)) {e : Encoder}
    (he : p = .write → ∃ cmd params, params.length ≤ MAX_PARAM_LEN ∧ e.txbuf = frameBytes TYPE_COMMAND cmd params) :
    State.Inv { s.start o p with enc := e } := by
  obtain ⟨_, hx, hc, hf, _⟩ := h.clean hidle
  exact {
    h with
    busy := by rcases hp with rfl | rfl <;> simp
    open_of_busy := fun _ => hopen
    op := ho
    clean := by rcases hp with rfl | rfl <;> simp
    pool := ⟨h.pool.1, by simp⟩
    outgoing := he
    draining := fun _ => ⟨hc, hf⟩
    stop := fun _ => h.stop (by simp [hidle])
    serial := by
      have hs : s.ser = Decoder.reset := by rw [h.serial]; simp [State.heard, hidle]
      rcases hp with rfl | rfl
      · simpa [State.heard] using hs
      · simpa [State.heard, hx] using hs }

/-- RECEIVE's start, from a `write` or a `read` (spec/43_session.md R170, R174). -/
theorem beginReceive {s : State} (h : s.Inv) (hp : s.point = .write ∨ s.point = .read) (ho : OpAt .read s.op) (e : Encoder) :
    (State.beginReceive { s with enc := e }).Inv where
  busy := by simp [h.busy]; rcases hp with hp | hp <;> simp [hp]
  open_of_busy := h.open_of_busy
  channel := h.channel
  op := ho
  clean := by simp
  cursor := Nat.le_refl 0
  extents := extents_nil
  frames := ⟨by simp, h.frames.2⟩
  pool := h.pool
  capacity := exceeds_zero _
  outgoing := by simp
  draining := fun _ => ⟨rfl, rfl⟩
  stop := fun _ => h.stop (by rcases hp with hp | hp <;> simp [hp])
  phase := h.phase
  serial := rfl

theorem written {s : State} (h : s.Inv) (hp : s.point = .write) : s.written.Inv := by
  by_cases ho : s.op = some .readTags
  · rw [State.written_readTags ho]; exact h.beginReceive (.inl hp) (.inr ho) _
  · rw [State.written_send ho]; exact h.conclude (by simp)

theorem write {s t : State} (h : s.Inv) (hp : s.point = .write) (ht : s.write = .next t) : t.Inv := by
  rcases s.write_cases with ⟨_, hw⟩ | ⟨_, _, _, _, hw⟩ | ⟨_, _, hw⟩ | ⟨_, _, _, _, hw⟩ | ⟨_, _, _, _, hw⟩
  · rw [hw] at ht; cases ht; exact h
  · rw [hw] at ht; cases ht; exact (h.with_chan _).raise _
  · rw [hw] at ht; cases ht; exact (h.with_chan _).written hp
  · rw [hw] at ht; cases ht; exact (h.with_chan _).raise _
  · rw [hw] at ht; cases ht

theorem sendFrame {s t : State} (h : s.Inv) (hidle : s.point = .idle) (hopen : s.session.sOpen = true) {o : SessionOp}
    (ho : OpAt .write (some o)) {cmd : Byte} {params : List Byte}
    (ht : (s.start o .write).sendFrame cmd params = .next t) : t.Inv := by
  rcases State.sendFrame_cases cmd params (s.start o .write) with ⟨_, hs⟩ | ⟨hp, hs⟩
  · rw [hs] at ht; cases ht; exact of_conclude h.channel h.phase (by simp)
  · rw [hs] at ht
    refine (h.start hidle hopen (.inl rfl) ho fun _ => ⟨cmd, params, hp, ?_⟩).write rfl ht
    rw [Encoder.emitFrame_eq]

/-! The drain. -/

theorem drained {s : State} (h : s.Inv) (hp : s.point = .read) (as : List ReadAnswer) :
    (s.drained (drain s.rxbufCap s.dec.rxbuf as).1).Inv := by
  have hcap := drain_capacity s.rxbufCap as s.dec.rxbuf h.capacity
  have hpre := fun b => drain_prefix (cap := s.rxbufCap) (buf := s.dec.rxbuf) (b := b) (rs := as)
  have hheard : s.ser = s.dec.rxbuf.foldl Decoder.serialByte Decoder.reset := by rw [h.serial]; simp [State.heard, hp]
  obtain ⟨hcur, hfr⟩ := h.draining hp
  match hd : (drain s.rxbufCap s.dec.rxbuf as).1 with
  | .failed => exact h.raise _
  | .overflow => exact h.conclude (by simp)
  | .waiting b =>
    rw [State.drained_waiting]
    exact {
      h with
      clean := by simp [hp]
      cursor := by simp [hcur]
      extents := by simpa [hcur, hfr] using extents_nil
      capacity := hcap b (.inl hd)
      serial := by
        rw [State.hear_ser_of_prefix (hpre b (.inl hd)) hheard]; simp [State.heard, hp] }
  | .done b =>
    rw [State.drained_done]
    exact {
      h with
      busy := by simp [h.busy, hp]
      op := by simpa [OpAt, hp] using h.op
      clean := by simp
      cursor := Nat.zero_le _
      extents := extents_nil
      frames := ⟨by simp, h.frames.2⟩
      capacity := hcap b (.inr hd)
      outgoing := by simp
      draining := by simp
      stop := fun _ => h.stop (by simp [hp])
      serial := by
        rw [State.hear_ser_of_prefix (hpre b (.inr hd)) hheard]; rfl }

theorem drainAll {s : State} (h : s.Inv) (hp : s.point = .read) : s.drainAll.Inv :=
  (h.with_chan { s.chan with reads := (drain s.rxbufCap s.dec.rxbuf s.chan.reads).2 }).drained hp s.chan.reads

theorem readOne {s : State} (h : s.Inv) (hp : s.point = .read) (a : ReadAnswer) (rs : List ReadAnswer) :
    (s.readOne a rs).Inv := (h.with_chan { s.chan with reads := rs }).drained hp [a]

/-! The decode loop. -/

theorem latch {s : State} (h : s.Inv) : State.Inv { s with dec := s.dec.latch } :=
  h.with_dec (by simp) (by simp) (by simp) (by simp) (by simp)

/-- A frame taken moves CURSOR past its bytes and appends the Frame they are the extent of (R131 (a), (b)). -/
theorem accept {s : State} (h : s.Inv) (hp : s.point = .decode) {w : WireFrame}
    (hw : decodeFrame s.dec.remaining = .ok w) (ht : w.type ≠ .command) :
    State.Inv { s with dec := s.dec.accept w } := by
  obtain ⟨hlen, more, hrem⟩ := decodeFrame_ok hw
  have hle : s.dec.cursor ≤ s.dec.rxbuf.length := h.cursor
  have hrest : s.dec.rxbuf.length - s.dec.cursor = w.parameters.length + 7 + more.length := by
    simpa [Decoder.remaining] using congrArg List.length hrem
  have htake : s.dec.rxbuf.take (s.dec.cursor + w.parameters.length + 7) = s.dec.rxbuf.take s.dec.cursor ++ w.bytes := by
    rw [Nat.add_assoc, List.take_add, ← Decoder.remaining, hrem, ← w.bytes_length, List.take_left]
  exact {
    h with
    clean := by simp [hp]
    cursor := by simp [State.rxlen]; omega
    extents := by
      rw [Decoder.accept_frames, Decoder.accept_rxbuf, Decoder.accept_cursor, htake]
      exact extents_append h.extents (extents_frameOf w)
    frames := by
      refine ⟨fun f hf => ?_, h.frames.2⟩
      rcases List.mem_append.1 hf with hf | hf
      · exact h.frames.1 f hf
      · cases List.mem_singleton.1 hf; exact frameOf_wf hlen ht
    draining := by simp [hp] }

theorem decodeLoop {s : State} (h : s.Inv) (hp : s.point = .decode) (n : Nat) :
    State.Inv { s with dec := (s.dec.loop n).1 } := by
  induction n generalizing s with
  | zero => exact h
  | succ n ih =>
    rcases s.dec.decode1_cases with ⟨r, h1, -⟩ | ⟨w, h1, hw, ht⟩
    · simpa only [Decoder.loop, h1] using h.latch
    · have ht : w.type ≠ .command := by rcases ht with ht | ht <;> simp [ht]
      simpa only [Decoder.loop, h1] using ih (h.accept hp hw ht) hp

/-! The operations from a control point to their end. -/

theorem runDispatch {s : State} (h : s.Inv) : s.runDispatch.Inv := by
  unfold State.runDispatch
  split
  · next hp =>
    have hni : s.point ≠ .idle := by simp [hp]
    exact ((h.with_tags hni (Tags.foldl_dispatch_poolOk h.pool.1 s.batch)).with_batch hni (by simp)).endTags
  · exact h

theorem runDecode {s : State} (h : s.Inv) : s.runDecode.Inv := by
  unfold State.runDecode
  split
  · next hp => exact ((h.decodeLoop hp _).endDecode hp _).runDispatch
  · exact h

theorem runReceive {s : State} (h : s.Inv) : s.runReceive.Inv := by
  unfold State.runReceive
  split
  · next hp => exact (h.drainAll hp).runDecode
  · exact h

/-! The host operations. -/

/-- A session operation that may start finds the session open and nothing in flight (spec/43_session.md R186). -/
theorem idle_of_sessionRefusal {s : State} (h : s.Inv) (hr : s.sessionRefusal = none) :
    s.point = .idle ∧ s.session.sOpen = true := by
  obtain ⟨hopen, hbusy⟩ := sessionRefusal_eq_none.1 hr
  refine ⟨?_, hopen⟩
  by_contra hp
  simp [h.busy.2 hp] at hbusy

/-- OPEN, on a session with nothing in flight (spec/43_session.md R165). -/
theorem opened {s : State} (h : s.Inv) (hclosed : s.session.sOpen = false) (channel timeout : Nat) :
    State.Inv { s with session := ⟨some channel, timeout, true, false⟩ } := by
  have hb : s.session.sBusy ≠ true := fun hb => by simp [h.open_of_busy hb] at hclosed
  exact {
    h with
    busy := by simpa [hb] using h.busy
    open_of_busy := by simp
    channel := by simp }

theorem startReceive {s : State} (h : s.Inv) (hidle : s.point = .idle) (hopen : s.session.sOpen = true) :
    s.startReceive.Inv :=
  State.Inv.beginReceive (s := s.start .receive .read)
    (h.start hidle hopen (.inr rfl) (.inl rfl) (e := s.enc) (by simp)) (.inr rfl) (.inl rfl) s.enc

/-- A request taken keeps the invariant. -/
theorem exec_request {s t : State} (h : s.Inv) {q : Request} {i : Instr} (hi : decodeRequest q = some i)
    (ht : exec i s = .next t) : t.Inv := by
  rcases exec_request_cases hi ht with ⟨_, hclosed, rfl⟩ | ⟨_, _, rfl⟩ | ⟨r, hr, rfl⟩ | ⟨_, hr, hs⟩ | ⟨_, hr, rfl⟩ |
    ⟨_, hr, u, hu, rfl⟩
  · exact (h.opened hclosed _ _).answer (by simp)
  · exact h.closeChannel
  · exact h.answer hr
  · obtain ⟨hidle, hopen⟩ := h.idle_of_sessionRefusal hr
    exact h.sendFrame hidle hopen (.inl rfl) hs
  · obtain ⟨hidle, hopen⟩ := h.idle_of_sessionRefusal hr
    exact (h.startReceive hidle hopen).runReceive
  · obtain ⟨hidle, hopen⟩ := h.idle_of_sessionRefusal hr
    exact (h.sendFrame hidle hopen (.inr rfl) hu).runReceive

/-- A whole frame found at CURSOR keeps the invariant. -/
theorem exec_frame {s t : State} (h : s.Inv) (hp : s.point = .decode) {w : WireFrame}
    (hw : decodeFrame s.dec.remaining = .ok w) (ht : exec w.toInstr s = .next t) : t.Inv := by
  by_cases hc : w.type = .command
  · rw [exec_toInstr_command hc] at ht
    cases ht
    exact (h.with_dec (d := { s.dec with dType := TYPE_COMMAND }) rfl rfl rfl rfl rfl).endDecode hp _
  · rw [exec_toInstr_accepted hc] at ht
    cases ht
    exact h.accept hp hw hc

end State.Inv

/-- Settles O3, by the cases of a step. -/
theorem stepKeepsTheInvariant : Obligations.StepKeepsTheInvariant := by
  intro s t h ht
  rcases step_cases s with ⟨q, qs, i, _, hi, hs⟩ | ⟨q, qs, _, _, hs⟩ | ⟨_, _, hs⟩ | ⟨_, hp, _, hs⟩ | ⟨a, rs, _, hp, _, hs⟩ |
    ⟨w, _, hp, hw, hs⟩ | ⟨r, _, hp, _, hs⟩ | ⟨_, _, _, hs⟩ | ⟨f, fs, i, _, hp, hb, hi, hs⟩ | ⟨f, fs, _, hp, hb, _, hs⟩
  all_goals rw [hs] at ht
  · exact (h.with_port qs).exec_request hi ht
  · cases ht
  · cases ht; exact h
  · exact h.write hp ht
  · cases ht; exact h.readOne hp a rs
  · exact h.exec_frame hp hw ht
  · cases ht; exact h.latch.endDecode hp r
  · cases ht; exact h.endTags
  · have hni : s.point ≠ .idle := by simp [hp]
    have hfs : ∀ f ∈ fs, f.wf := fun g hg => h.frames.2 g (by simp [hb, hg])
    rw [exec_of_decodeCommand hi] at ht
    cases ht
    exact (h.with_batch hni hfs).with_tags hni (Tags.dispatch_poolOk h.pool.1 f)
  · cases ht; exact h.with_batch (by simp [hp]) fun g hg => h.frames.2 g (by simp [hb, hg])

end Sys2Proof.Machine

/-! PROOFS. The state after reset, and the status codes (spec/10_state.md R25, R38; spec/60_exceptions.md R190). -/

namespace Sys2Proof.Machine

/-- Settles O1: after reset there is no request and no operation in flight, so the step finds nothing to do. -/
theorem resetIsClosedIdleAndEmpty : Obligations.ResetIsClosedIdleAndEmpty :=
  ⟨rfl, rfl, rfl, rfl, rfl, rfl, rfl, rfl, rfl, rfl, rfl⟩

/-- Settles O2: every register is at its reset value, and no operation is in flight. -/
theorem resetMeetsTheInvariant : Obligations.ResetMeetsTheInvariant where
  busy := by simp [State.reset]
  open_of_busy := by simp [State.reset]
  channel := by simp [State.reset]
  op := rfl
  clean := fun _ => ⟨rfl, rfl, rfl, rfl, rfl, rfl, rfl, rfl⟩
  cursor := Nat.le_refl 0
  extents := extents_nil
  frames := ⟨by simp [State.reset, Decoder.reset], by simp [State.reset]⟩
  pool := ⟨poolOk_nil, by simp [State.reset]⟩
  capacity := exceeds_zero _
  outgoing := by simp [State.reset]
  draining := by simp [State.reset]
  stop := fun _ => rfl
  phase := rfl
  serial := rfl

/-- Settles O49, by the cases of the outcome. -/
theorem statusCodes : Obligations.StatusCodes := by
  refine ⟨rfl, rfl, rfl, rfl, fun _ => rfl, fun _ => rfl, fun _ => rfl, fun _ => rfl, ?_, rfl, ?_⟩
  · rintro ⟨pool, lastError, shortCount, stop, rest⟩
    cases lastError <;> rfl
  · intro o hoverflow herror htags
    cases o with
    | error e => exact absurd rfl (herror e)
    | tags r => exact absurd rfl (htags r)
    | rxOverflow => exact absurd rfl hoverflow
    | opened => rfl
    | ok => rfl
    | encoded => rfl
    | decoded => rfl
    | received => rfl
    | inventory => rfl
    | failure => rfl

end Sys2Proof.Machine

/-! PROOFS. What of the state only OPEN and CLOSE write, and what nothing writes (spec/10_state.md R26, R34;
spec/60_exceptions.md R201). -/

namespace Sys2Proof.Machine

/-- RXBUF_CAP, and of the session record all but S_BUSY. -/
def State.held (s : State) : Option Nat × Option Nat × Nat × Bool :=
  (s.rxbufCap, s.session.channel, s.session.readTimeout, s.session.sOpen)

theorem State.held_eq_iff {s t : State} :
    t.held = s.held ↔ t.rxbufCap = s.rxbufCap ∧ t.session.channel = s.session.channel ∧
      t.session.readTimeout = s.session.readTimeout ∧ t.session.sOpen = s.session.sOpen := by
  simp [State.held]

theorem State.held_written (s : State) : s.written.held = s.held := by
  unfold State.written
  split <;> rfl

theorem State.held_write {s t : State} (h : s.write = .next t) : t.held = s.held := by
  rcases s.write_cases with ⟨_, hw⟩ | ⟨_, _, _, _, hw⟩ | ⟨_, _, hw⟩ | ⟨_, _, _, _, hw⟩ | ⟨_, _, _, _, hw⟩
  · rw [hw] at h; cases h; rfl
  · rw [hw] at h; cases h; rfl
  · rw [hw] at h; cases h; exact State.held_written _
  · rw [hw] at h; cases h; rfl
  · rw [hw] at h; cases h

theorem State.held_sendFrame {s t : State} {cmd : Byte} {params : List Byte} (h : s.sendFrame cmd params = .next t) :
    t.held = s.held := by
  rcases State.sendFrame_cases cmd params s with ⟨_, hs⟩ | ⟨_, hs⟩
  · rw [hs] at h; cases h; rfl
  · rw [hs] at h; exact (State.held_write h).trans rfl

theorem State.held_drained (o : Drain) (s : State) : (s.drained o).held = s.held := by
  cases o <;> rfl

theorem State.held_endDecode (r : StopReason) (s : State) : (s.endDecode r).held = s.held := by
  unfold State.endDecode
  split <;> rfl

theorem State.held_runDispatch (s : State) : s.runDispatch.held = s.held := by
  unfold State.runDispatch
  split <;> rfl

theorem State.held_runDecode (s : State) : s.runDecode.held = s.held := by
  unfold State.runDecode
  split
  · exact (State.held_runDispatch _).trans (State.held_endDecode _ _)
  · rfl

theorem State.held_runReceive (s : State) : s.runReceive.held = s.held := by
  unfold State.runReceive
  split
  · exact (State.held_runDecode _).trans (State.held_drained _ _)
  · rfl

/-- A request keeps what is held, but for OPEN and CLOSE, which keep RXBUF_CAP. -/
theorem held_exec_request {s t : State} {q : Request} {i : Instr} (hi : decodeRequest q = some i)
    (h : exec i s = .next t) :
    t.held = s.held ∨ t.rxbufCap = s.rxbufCap ∧ (q.opsel.toNat = 0 ∨ q.opsel.toNat = 1) := by
  rcases exec_request_cases hi h with ⟨hq, _, rfl⟩ | ⟨hq, _, rfl⟩ | ⟨r, _, rfl⟩ | ⟨_, _, hs⟩ | ⟨_, _, rfl⟩ |
    ⟨_, _, u, hu, rfl⟩
  · exact .inr ⟨rfl, .inl hq⟩
  · exact .inr ⟨rfl, .inr hq⟩
  · exact .inl rfl
  · exact .inl ((State.held_sendFrame hs).trans rfl)
  · exact .inl ((State.held_runReceive _).trans rfl)
  · exact .inl ((State.held_runReceive u).trans ((State.held_sendFrame hu).trans rfl))

theorem held_exec_frame {s t : State} {w : WireFrame} (h : exec w.toInstr s = .next t) : t.held = s.held := by
  by_cases hc : w.type = .command
  · rw [exec_toInstr_command hc] at h; cases h; exact (State.held_endDecode _ _).trans rfl
  · rw [exec_toInstr_accepted hc] at h; cases h; rfl

/-- A step keeps what is held, but for an OPEN or a CLOSE taken. -/
theorem step_held {s t : State} (ht : step s = .next t) :
    t.held = s.held ∨
      t.rxbufCap = s.rxbufCap ∧ ∃ q qs, s.port = q :: qs ∧ (q.opsel.toNat = 0 ∨ q.opsel.toNat = 1) := by
  rcases step_cases s with ⟨q, qs, i, hp, hi, hs⟩ | ⟨_, _, _, _, hs⟩ | ⟨_, _, hs⟩ | ⟨_, _, _, hs⟩ | ⟨_, _, _, _, _, hs⟩ |
    ⟨_, _, _, _, hs⟩ | ⟨_, _, _, _, hs⟩ | ⟨_, _, _, hs⟩ | ⟨_, _, _, _, _, _, hi, hs⟩ | ⟨_, _, _, _, _, _, hs⟩
  all_goals rw [hs] at ht
  · rcases held_exec_request hi ht with h | ⟨hcap, hq⟩
    · exact .inl h
    · exact .inr ⟨hcap, q, qs, hp, hq⟩
  · cases ht
  · cases ht; exact .inl rfl
  · exact .inl (State.held_write ht)
  · cases ht; exact .inl ((State.held_drained _ _).trans rfl)
  · exact .inl (held_exec_frame ht)
  · cases ht; exact .inl ((State.held_endDecode _ _).trans rfl)
  · cases ht; exact .inl rfl
  · rw [exec_of_decodeCommand hi] at ht; cases ht; exact .inl rfl
  · cases ht; exact .inl rfl

/-- Settles O47: only OPEN and CLOSE change what is held. -/
theorem onlyOpenAndCloseChangeTheSession : Obligations.OnlyOpenAndCloseChangeTheSession := by
  intro s t ht
  rcases step_held ht with h | ⟨hcap, hq⟩
  · exact (State.held_eq_iff.1 h).imp_right .inl
  · exact ⟨hcap, .inr hq⟩

end Sys2Proof.Machine

/-! PROOFS. The session's working registers are unobservable (spec/10_state.md R39): each shared operation, run on a state
without them, answers what it answers on the state, without them. -/

namespace Sys2Proof.Machine

open Config

/-- Outcomes equal without the working registers stay so when what follows reads none. -/
theorem andThen_eraseWork_congr {o p : Host.Outcome State Fault Refusal} {f : State → State}
    (h : andThen o State.eraseWork = andThen p State.eraseWork)
    (hf : ∀ s : State, (f s.eraseWork).eraseWork = (f s).eraseWork) :
    andThen (andThen o f) State.eraseWork = andThen (andThen p f) State.eraseWork := by
  have key : ∀ o, andThen (andThen o f) State.eraseWork =
      andThen (andThen (andThen o State.eraseWork) f) State.eraseWork := fun o => by
    cases o with
    | next s => exact congrArg Host.Outcome.next (hf s).symm
    | fault r => rfl
    | refused r => rfl
  rw [key o, h, ← key p]

/-- The decoder without the working registers of R22 and the count of spec/41_decode.md R135. -/
def Decoder.eraseWork (d : Decoder) : Decoder := { d with dType := 0, dCmd := 0, dLen := 0, dCnt := 0, dAcc := 0, dCs := 0 }

/-- Two decoders are equal without them when their other registers are. -/
theorem Decoder.eraseWork_congr {d e : Decoder} (hx : d.rxbuf = e.rxbuf) (hc : d.cursor = e.cursor)
    (hf : d.frames = e.frames) (hs : d.stop = e.stop) (hp : d.dPhase = e.dPhase) (hb : d.pbuf = e.pbuf) :
    d.eraseWork = e.eraseWork := by
  simp only [Decoder.eraseWork, hx, hc, hf, hs, hp, hb]

theorem Decoder.eraseWork_latch (d : Decoder) : d.latch.eraseWork = d.eraseWork :=
  Decoder.eraseWork_congr (by simp) (by simp) (by simp) (by simp) (by simp) (by simp)

/-- The decode loop stops for the same reason whatever the working registers hold. -/
theorem Decoder.run_stop_eraseWork (d : Decoder) : d.eraseWork.run.2 = d.run.2 := by
  have h := d.loop_eq d.remaining.length
  have he := d.eraseWork.loop_eq d.remaining.length
  exact he.1.trans h.1.symm

/-- The decode loop reads no working register. -/
theorem Decoder.eraseWork_run (d : Decoder) : d.eraseWork.run.1.eraseWork = d.run.1.eraseWork := by
  obtain ⟨-, hf, hc, hx, hs, -, hp, hb⟩ := d.loop_eq d.remaining.length
  obtain ⟨-, hf', hc', hx', hs', -, hp', hb'⟩ := d.eraseWork.loop_eq d.remaining.length
  exact Decoder.eraseWork_congr (hx'.trans hx.symm) (hc'.trans hc.symm) (hf'.trans hf.symm) (hs'.trans hs.symm)
    (hp'.trans hp.symm) (hb'.trans hb.symm)

namespace State

theorem eraseWork_eq_of_dec {s : State} {d e : Decoder} (h : d.eraseWork = e.eraseWork) :
    State.eraseWork { s with dec := d } = State.eraseWork { s with dec := e } := by
  show ({ s with enc := { s.enc with eCmd := 0, eLen := 0, eAcc := 0 }, dec := d.eraseWork } : State) = _
  rw [h]; rfl

@[simp] theorem eraseWork_session (s : State) : s.eraseWork.session = s.session := rfl
@[simp] theorem eraseWork_txbuf (s : State) : s.eraseWork.enc.txbuf = s.enc.txbuf := rfl
@[simp] theorem eraseWork_dec (s : State) : s.eraseWork.dec = s.dec.eraseWork := rfl
@[simp] theorem eraseWork_batch (s : State) : s.eraseWork.batch = s.batch := rfl
@[simp] theorem eraseWork_point (s : State) : s.eraseWork.point = s.point := rfl
@[simp] theorem eraseWork_port (s : State) : s.eraseWork.port = s.port := rfl
@[simp] theorem eraseWork_chan (s : State) : s.eraseWork.chan = s.chan := rfl

theorem eraseWork_written (s : State) : s.written.eraseWork = s.eraseWork.written := by
  by_cases h : s.op = some .readTags
  · rw [written_readTags h, written_readTags (s := s.eraseWork) h]; rfl
  · rw [written_send h, written_send (s := s.eraseWork) h]; rfl

theorem eraseWork_write (s : State) : andThen s.write eraseWork = s.eraseWork.write := by
  unfold State.write
  dsimp +instances only [eraseWork_chan, eraseWork_txbuf]
  split
  · rfl
  · split_ifs
    · rfl
    · exact congrArg Host.Outcome.next (eraseWork_written _)
    · rfl
  · split_ifs <;> rfl

/-- SEND's frame and its working registers are written over whatever these held. -/
theorem sendFrame_eraseWork (cmd : Byte) (params : List Byte) (s : State) :
    andThen (s.eraseWork.sendFrame cmd params) eraseWork = andThen (s.sendFrame cmd params) eraseWork := by
  rcases s.sendFrame_cases cmd params with ⟨hlong, hs⟩ | ⟨hfits, hs⟩
  · rcases s.eraseWork.sendFrame_cases cmd params with ⟨_, he⟩ | ⟨hfits, _⟩
    · rw [hs, he]; rfl
    · omega
  · rcases s.eraseWork.sendFrame_cases cmd params with ⟨hlong, _⟩ | ⟨_, he⟩
    · omega
    · rw [hs, he, eraseWork_write, eraseWork_write, Encoder.emitFrame_eq, Encoder.emitFrame_eq]; rfl

theorem eraseWork_drained (o : Drain) (s : State) : (s.drained o).eraseWork = s.eraseWork.drained o := by
  cases o <;> rfl

theorem eraseWork_drainAll (s : State) : s.drainAll.eraseWork = s.eraseWork.drainAll := eraseWork_drained _ _

theorem eraseWork_readOne (a : ReadAnswer) (rs : List ReadAnswer) (s : State) :
    (s.readOne a rs).eraseWork = s.eraseWork.readOne a rs := eraseWork_drained _ _

theorem eraseWork_endDecode (r : StopReason) (s : State) : (s.endDecode r).eraseWork = s.eraseWork.endDecode r := by
  by_cases h : s.op = some .readTags
  · rw [endDecode_readTags r h, endDecode_readTags (s := s.eraseWork) r h]; rfl
  · rw [endDecode_receive r h, endDecode_receive (s := s.eraseWork) r h]; rfl

theorem eraseWork_runDispatch (s : State) : s.runDispatch.eraseWork = s.eraseWork.runDispatch := by
  unfold runDispatch
  simp only [eraseWork_point]
  split <;> rfl

theorem runDecode_eraseWork (s : State) : s.eraseWork.runDecode.eraseWork = s.runDecode.eraseWork := by
  unfold runDecode
  simp only [eraseWork_point, eraseWork_dec]
  split
  · rw [eraseWork_runDispatch, eraseWork_runDispatch, eraseWork_endDecode, eraseWork_endDecode,
      Decoder.run_stop_eraseWork, ← eraseWork_eq_of_dec s.dec.eraseWork_run]
    rfl
  · rfl

theorem runReceive_eraseWork (s : State) : s.eraseWork.runReceive.eraseWork = s.runReceive.eraseWork := by
  unfold runReceive
  simp only [eraseWork_point]
  split
  · rw [← eraseWork_drainAll, runDecode_eraseWork]
  · rfl

end State

/-- No instruction reads a working register. -/
theorem exec_eraseWork (i : Instr) (s : State) :
    andThen (exec i s.eraseWork) State.eraseWork = andThen (exec i s) State.eraseWork := by
  have of_pure : PureOp i →
      andThen (exec i s.eraseWork) State.eraseWork = andThen (exec i s) State.eraseWork := fun hpure => by
    obtain ⟨r, -, he⟩ := exec_pure hpure
    rw [he, he]; rfl
  have hrefusal : s.eraseWork.sessionRefusal = s.sessionRefusal := rfl
  cases i with
  | frameCommand cmd params cs tr =>
    refine congrArg Host.Outcome.next ?_
    rw [State.eraseWork_endDecode, State.eraseWork_endDecode]
    rfl
  | frameResponse cmd params cs tr => rfl
  | frameNotification cmd params cs tr => rfl
  | getModuleInfo params => rfl
  | singlePoll params => rfl
  | multiPoll params => rfl
  | stopMultiPoll params => rfl
  | setRxDemod params => rfl
  | execFailure params => rfl
  | opOpen channel timeout =>
    simp only [exec, execOpen]
    dsimp +instances only [State.eraseWork_session]
    split_ifs <;> rfl
  | opClose =>
    simp only [exec, execClose, hrefusal]
    split <;> rfl
  | opEncode cmd params => exact of_pure (.inl ⟨_, _, rfl⟩)
  | opDecode buf => exact of_pure (.inr (.inl ⟨_, rfl⟩))
  | opSend cmd params =>
    simp only [exec, execSend, hrefusal]
    split
    · rfl
    · exact State.sendFrame_eraseWork cmd params (s.start .send .write)
  | opReceive =>
    simp only [exec, execReceive, hrefusal]
    split
    · rfl
    · exact congrArg Host.Outcome.next (State.runReceive_eraseWork s.startReceive)
  | opInvParse params => exact of_pure (.inr (.inr (.inl ⟨_, rfl⟩)))
  | opErrParse params => exact of_pure (.inr (.inr (.inr ⟨_, rfl⟩)))
  | opReadTags rounds =>
    simp only [exec, execReadTags, hrefusal]
    split
    · rfl
    · exact andThen_eraseWork_congr (State.sendFrame_eraseWork _ _ (s.start .readTags .write)) State.runReceive_eraseWork

/-- What comes of what a step finds to do. -/
def Fetched.outcome : Fetched → Host.Outcome State Fault Refusal
  | .run i s => exec i s
  | .move o => o

theorem step_eq_outcome (s : State) : step s = (fetch s).outcome := by
  unfold step
  cases fetch s <;> rfl

theorem fetchFrame_eraseWork (s : State) :
    andThen (fetchFrame s.eraseWork).outcome State.eraseWork = andThen (fetchFrame s).outcome State.eraseWork := by
  have hremaining : s.eraseWork.dec.remaining = s.dec.remaining := rfl
  unfold fetchFrame
  rw [hremaining]
  split
  · exact exec_eraseWork _ s
  · next r _ =>
    refine congrArg Host.Outcome.next ?_
    rw [State.eraseWork_endDecode, State.eraseWork_endDecode, State.eraseWork_eq_of_dec s.dec.eraseWork_latch,
      State.eraseWork_eq_of_dec s.eraseWork.dec.eraseWork_latch]
    rfl

theorem fetchCommand_eraseWork (s : State) :
    andThen (fetchCommand s.eraseWork).outcome State.eraseWork = andThen (fetchCommand s).outcome State.eraseWork := by
  unfold fetchCommand
  rw [State.eraseWork_batch]
  split
  · rfl
  · next f fs _ =>
    split
    · exact exec_eraseWork _ { s with batch := fs }
    · rfl

theorem fetchInFlight_eraseWork (s : State) :
    andThen (fetchInFlight s.eraseWork).outcome State.eraseWork = andThen (fetchInFlight s).outcome State.eraseWork := by
  unfold fetchInFlight
  simp only [State.eraseWork_point, State.eraseWork_chan]
  split
  · rfl
  · split
    · rfl
    · exact (State.eraseWork_write s.eraseWork).trans (State.eraseWork_write s).symm
  · split
    · rfl
    · next a rs _ =>
      exact congrArg Host.Outcome.next
        ((State.eraseWork_readOne a rs s.eraseWork).trans (State.eraseWork_readOne a rs s).symm)
  · exact fetchFrame_eraseWork s
  · exact fetchCommand_eraseWork s

/-- A step reads no working register. -/
theorem step_eraseWork (s : State) :
    andThen (step s.eraseWork) State.eraseWork = andThen (step s) State.eraseWork := by
  rw [step_eq_outcome, step_eq_outcome]
  unfold fetch
  rw [State.eraseWork_port]
  split
  · exact fetchInFlight_eraseWork s
  · next q qs _ =>
    split
    · exact exec_eraseWork _ { s with port := qs }
    · rfl

/-- Settles O44: both steps are the step of the one state without working registers. -/
theorem workingRegistersAreUnobservable : Obligations.WorkingRegistersAreUnobservable := by
  intro s t h
  rw [← step_eraseWork s, h, step_eraseWork t]

end Sys2Proof.Machine

/-! PROOFS. Decoding and encoding agree (spec/30_encoding.md R70 to R74, R78, R79, R85, R87, R90): what the frame decoder
reads, what each kind of code decodes to, the rows of the opcode table, and the step's fetch. -/

namespace Sys2Proof

open Config

/-! The frame decoder. -/

/-- The frame decoder reads a frame from its bytes, whatever follows (R70, R71, R74). -/
theorem decodeFrame_bytes_append {w : WireFrame} (hp : w.parameters.length ≤ MAX_PARAM_LEN) (more : List Byte) :
    decodeFrame (w.bytes ++ more) = .ok w := by
  obtain ⟨type, c, p, cs, tr⟩ := w
  have hbody : takeBody ([c, hi8 p.length, lo8 p.length] ++ p ++ [cs, tr] ++ more) = some (c, p, cs, tr) :=
    takeBody_eq_some.2 ⟨hp, more, rfl⟩
  have hbytes : WireFrame.bytes ⟨type, c, p, cs, tr⟩ ++ more =
      HDR :: type.code :: ([c, hi8 p.length, lo8 p.length] ++ p ++ [cs, tr] ++ more) := rfl
  rw [hbytes, decodeFrame, if_pos rfl]
  simp only [FrameType.ofByte_code, hbody]

theorem decodeFrame_bytes {w : WireFrame} (hp : w.parameters.length ≤ MAX_PARAM_LEN) : decodeFrame w.bytes = .ok w := by
  simpa using decodeFrame_bytes_append hp []

/-- Settles O39: a whole frame is read from its bytes, and what is read from begins with a whole frame. -/
theorem frameDecoderReadsWholeFrames : Obligations.FrameDecoderReadsWholeFrames := by
  intro bytes w
  constructor
  · intro h
    obtain ⟨hp, more, hbytes⟩ := decodeFrame_ok h
    exact ⟨more, hbytes, hp⟩
  · rintro ⟨more, rfl, hp⟩
    exact decodeFrame_bytes_append hp more

/-! What each kind of code decodes to. -/

theorem decode_request_eq_ok {q : Request} {i : Instr} : decode (.request q) = .ok i ↔ decodeRequest q = some i := by
  cases h : decodeRequest q <;> simp [decode, h]

theorem decode_request_eq_error {q : Request} {r : Reject} :
    decode (.request q) = .error r ↔ decodeRequest q = none ∧ .badOpsel q.opsel = r := by
  cases h : decodeRequest q <;> simp [decode, h]

theorem decode_frame_eq_ok {bytes : List Byte} {i : Instr} :
    decode (.frame bytes) = .ok i ↔ ∃ w, decodeFrame bytes = .ok w ∧ w.toInstr = i := by
  cases h : decodeFrame bytes <;> simp [decode, h]

theorem decode_command_eq_ok {opcode : Byte} {p : List Byte} {i : Instr} :
    decode (.command opcode p) = .ok i ↔ decodeCommand opcode p = some i := by
  cases h : decodeCommand opcode p <;> simp [decode, h]

theorem decode_command_eq_error {opcode : Byte} {p : List Byte} {r : Reject} :
    decode (.command opcode p) = .error r ↔ decodeCommand opcode p = none ∧ .unlistedOpcode opcode = r := by
  cases h : decodeCommand opcode p <;> simp [decode, h]

/-- OPSEL 9 to 15 select nothing, and nothing else does (R90). -/
theorem decodeRequest_eq_none {q : Request} : decodeRequest q = none ↔ 9 ≤ q.opsel.toNat := by
  unfold decodeRequest
  split
  all_goals simp only [reduceCtorEq, false_iff, true_iff, imp_false] at *
  all_goals omega

/-- A listed command decodes to an instruction that is encoded as that command (R87). -/
theorem encode_of_decodeCommand {opcode : Byte} {p : List Byte} {i : Instr} (h : decodeCommand opcode p = some i) :
    encode i = .command opcode p := by
  unfold decodeCommand at h
  repeat' split at h
  all_goals cases h
  all_goals simp only [encode, *]

/-- A command without a row is none of the six listed (R85). -/
theorem decodeCommand_eq_none {opcode : Byte} {p : List Byte} (h : decodeCommand opcode p = none) :
    opcode ≠ 0x03 ∧ opcode ≠ 0x22 ∧ opcode ≠ 0x27 ∧ opcode ≠ 0x28 ∧ opcode ≠ 0xF0 ∧ opcode ≠ 0xFF := by
  unfold decodeCommand at h
  repeat' split at h
  all_goals cases h
  exact ⟨‹_›, ‹_›, ‹_›, ‹_›, ‹_›, ‹_›⟩

/-- A frame decodes from its bytes to the instruction of its row (R87). -/
theorem decode_bytes {w : WireFrame} (hp : w.parameters.length ≤ MAX_PARAM_LEN) :
    decode (.frame w.bytes) = .ok w.toInstr :=
  decode_frame_eq_ok.2 ⟨w, decodeFrame_bytes hp, rfl⟩

/-- Settles O38, by the rows: a frame row is read back from its bytes; the command byte of an opcode row and the OPSEL of
a host operation select the instruction they stand for, and the operands go through as they are. -/
theorem decodeUndoesEncode : Obligations.DecodeUndoesEncode := by
  intro i hwf
  cases i with
  | frameCommand c p cs tr => exact decode_bytes (w := ⟨.command, c, p, cs, tr⟩) (of_decide_eq_true hwf)
  | frameResponse c p cs tr => exact decode_bytes (w := ⟨.response, c, p, cs, tr⟩) (of_decide_eq_true hwf)
  | frameNotification c p cs tr => exact decode_bytes (w := ⟨.notification, c, p, cs, tr⟩) (of_decide_eq_true hwf)
  | getModuleInfo | singlePoll | multiPoll | stopMultiPoll | setRxDemod | execFailure => rfl
  | opOpen | opClose | opEncode | opDecode | opSend | opReceive | opInvParse | opErrParse | opReadTags => rfl

/-- Settles O40: the decoder evaluated on the words. -/
theorem sampleWordsDecode : Obligations.SampleWordsDecode := by
  unfold Obligations.SampleWordsDecode
  decide

/-! The rows of the opcode table. -/

/-- What an instruction is encoded as hits its own row and no other, for all eighteen rows. -/
theorem encode_rows (i : Instr) : (encode i).rows = [i.mnemonic] := by
  cases i with
  | frameCommand c p cs tr => exact Laws.EncodesRow.frameCommand c p cs tr
  | frameResponse c p cs tr => exact Laws.EncodesRow.frameResponse c p cs tr
  | frameNotification c p cs tr => exact Laws.EncodesRow.frameNotification c p cs tr
  | getModuleInfo p => exact Laws.EncodesRow.getModuleInfo p
  | singlePoll p => exact Laws.EncodesRow.singlePoll p
  | multiPoll p => exact Laws.EncodesRow.multiPoll p
  | stopMultiPoll p => exact Laws.EncodesRow.stopMultiPoll p
  | setRxDemod p => exact Laws.EncodesRow.setRxDemod p
  | execFailure p => exact Laws.EncodesRow.execFailure p
  | opOpen channel timeout => exact Laws.EncodesRow.opOpen channel timeout
  | opClose => exact Laws.EncodesRow.opClose
  | opEncode c p => exact Laws.EncodesRow.opEncode c p
  | opDecode buf => exact Laws.EncodesRow.opDecode buf
  | opSend c p => exact Laws.EncodesRow.opSend c p
  | opReceive => exact Laws.EncodesRow.opReceive
  | opInvParse p => exact Laws.EncodesRow.opInvParse p
  | opErrParse p => exact Laws.EncodesRow.opErrParse p
  | opReadTags rounds => exact Laws.EncodesRow.opReadTags rounds

/-- The frame rows look at a frame's first five bytes alone. -/
theorem rows_bytes_append (w : WireFrame) (more : List Byte) :
    (Code.frame (w.bytes ++ more)).rows = (Code.frame w.bytes).rows := rfl

/-- A code that decodes hits its instruction's row and no other: the bytes after a whole frame, and the operands that an
operation ignores, are in no row. -/
theorem rows_of_decode {k : Code} {i : Instr} (h : decode k = .ok i) : k.rows = [i.mnemonic] := by
  cases k with
  | request q =>
    rcases Machine.decodeRequest_cases (decode_request_eq_ok.1 h) with ⟨hq, rfl⟩ | ⟨hq, rfl⟩ | ⟨hq, rfl⟩ | ⟨hq, rfl⟩ |
      ⟨hq, rfl⟩ | ⟨hq, rfl⟩ | ⟨hq, rfl⟩ | ⟨hq, rfl⟩ | ⟨hq, rfl⟩
    all_goals
      simp only [Code.rows, hq]
      rfl
  | frame bytes =>
    obtain ⟨w, hw, rfl⟩ := decode_frame_eq_ok.1 h
    obtain ⟨-, more, rfl⟩ := decodeFrame_ok hw
    rw [rows_bytes_append, Laws.frame_rows]
  | command opcode p =>
    rw [← encode_of_decodeCommand (decode_command_eq_ok.1 h), encode_rows]

/-- The byte that the opcode rows fix, in its place among the first five (R87). -/
theorem and_opcode_mask (b : Byte) : b.toNat * 2 ^ 16 &&& 0x0000FF0000 = b.toNat * 2 ^ 16 := by
  have hmask : (0x0000FF0000 : Nat) = 0xFF <<< 16 := rfl
  have hbyte : b.toNat &&& 0xFF = b.toNat := Nat.and_two_pow_sub_one_of_lt_two_pow (n := 8) b.isLt
  rw [hmask, ← Nat.shiftLeft_eq, ← Nat.shiftLeft_and_distrib, hbyte]

/-- A command byte without a row hits no row of the table (R85). -/
theorem rows_command_eq_nil {opcode : Byte} {p : List Byte} (h : decodeCommand opcode p = none) :
    (Code.command opcode p).rows = [] := by
  have hne := decodeCommand_eq_none h
  simp only [ne_eq, ← BitVec.toNat_inj, BitVec.ofNat_eq_ofNat, BitVec.toNat_ofNat] at hne
  simp only [Code.rows, List.map_eq_nil_iff, List.filter_eq_nil_iff, opcodeRows, Row.hits, List.forall_mem_cons,
    List.not_mem_nil, false_imp_iff, implies_true, and_true, and_opcode_mask, beq_iff_eq]
  omega

/-- An OPSEL of 9 to 15 hits no row of the table (R90). -/
theorem rows_request_eq_nil {q : Request} (h : decodeRequest q = none) : (Code.request q).rows = [] := by
  have hopsel := decodeRequest_eq_none.1 h
  have hmask : q.opsel.toNat &&& 15 = q.opsel.toNat := Nat.and_two_pow_sub_one_of_lt_two_pow (n := 4) q.opsel.isLt
  simp only [Code.rows, List.map_eq_nil_iff, List.filter_eq_nil_iff, hostopRows, Row.hits, List.forall_mem_cons,
    List.not_mem_nil, false_imp_iff, implies_true, and_true, hmask, beq_iff_eq]
  omega

/-- Settles O41: the decoder's tests are the rows' masks and patterns. -/
theorem decodingAgreesWithTheTable : Obligations.DecodingAgreesWithTheTable := by
  refine ⟨fun k i h => rows_of_decode h, fun opcode p r h => ?_, fun q r h => ?_⟩
  · exact rows_command_eq_nil (decode_command_eq_error.1 h).1
  · exact rows_request_eq_nil (decode_request_eq_error.1 h).1

end Sys2Proof

namespace Sys2Proof.Machine

open Config

/-! ENCODE and DECODE of one frame. -/

/-- ENCODE's frame of type command, as a frame on the wire (R72). -/
def commandFrame (cmd : Byte) (params : List Byte) : WireFrame :=
  ⟨.command, cmd, params, frameChecksum TYPE_COMMAND cmd params, TRL⟩

theorem commandFrame_bytes (cmd : Byte) (params : List Byte) :
    (commandFrame cmd params).bytes = frameBytes TYPE_COMMAND cmd params := rfl

/-- ENCODE hands over FRAME(0x00, cmd, params) (R72; spec/40_encode.md R103). -/
theorem exec_opEncode {params : List Byte} (hp : params.length ≤ MAX_PARAM_LEN) (cmd : Byte) (s : State) :
    exec (.opEncode cmd params) s = .next (s.answer (.encoded (frameBytes TYPE_COMMAND cmd params))) := by
  simp only [exec, execEncode, Encoder.encode_ok _ hp, Encoder.emitFrame_eq]

/-- A buffer that begins with a whole command frame stops DECODE at its start (spec/41_decode.md R122). -/
theorem decodeBuffer_of_command {buf : List Byte} {w : WireFrame} (hw : decodeFrame buf = .ok w)
    (ht : w.type = .command) : decodeBuffer buf = { frames := [], stop := .badType, cursor := 0, rest := buf } := by
  have hparse : parse buf.length buf = ([], .badType) := by
    cases buf with
    | nil => cases hw
    | cons b bs => simp only [List.length_cons, parse, hw, ht, if_true]
  rw [decodeBuffer_eq, hparse]
  rfl

/-- Settles O15: ENCODE emits a whole command frame, which the receive side does not accept (R79). -/
theorem decodeStopsOnAnEncodedFrame : Obligations.DecodeStopsOnAnEncodedFrame := by
  intro s cmd params hp
  refine ⟨frameBytes TYPE_COMMAND cmd params, exec_opEncode hp cmd s, ?_⟩
  have hframe : decodeFrame (frameBytes TYPE_COMMAND cmd params) = .ok (commandFrame cmd params) := by
    rw [← commandFrame_bytes]
    exact decodeFrame_bytes hp
  rw [← decodeBuffer_of_command hframe rfl]
  rfl

/-! The step's fetch. -/

/-- Settles O42, by the source of the instruction: the port, the decode loop, READTAGS's loop, and an OPSEL without a
row. -/
theorem stepRunsTheFetchedInstruction : Obligations.StepRunsTheFetchedInstruction := by
  refine ⟨fun s q qs i hport hi => ?_, fun s i hport hpoint hi => ?_, fun s f fs i hport hpoint hbatch hi => ?_,
    fun s q qs hport hopsel => ?_⟩
  · have hq := decode_request_eq_ok.1 hi
    simp only [step, fetch, hport, hq]
  · obtain ⟨w, hw, rfl⟩ := decode_frame_eq_ok.1 hi
    simp only [step, fetch, hport, fetchInFlight, hpoint, fetchFrame, Decoder.remaining, hw]
  · have hf := decode_command_eq_ok.1 hi
    simp only [step, fetch, hport, fetchInFlight, hpoint, fetchCommand, hbatch, hf]
  · have hq := decodeRequest_eq_none.2 hopsel
    simp only [step, fetch, hport, hq]

end Sys2Proof.Machine

/-! PROOFS. The checksum (spec/40_encode.md R100 to R102; spec/20_memory.md R52). -/

namespace Sys2Proof

/-- lo8 is the reduction to a byte (R52). -/
theorem lo8_eq_ofNat (n : Nat) : lo8 n = BitVec.ofNat 8 n := by
  apply BitVec.eq_of_toNat_eq
  simp

end Sys2Proof

namespace Sys2Proof.Machine

theorem csum_toNat (s : List Byte) : (csum s).toNat = (s.map BitVec.toNat).sum % 256 := by
  simp [csum]

/-- Settles O5: CSUM is defined so, and the low length byte is the length modulo 256. -/
theorem checksumIsTheByteSumModulo256 : Obligations.ChecksumIsTheByteSumModulo256 := by
  refine ⟨csum_toNat, csum_nil, fun t c p => ?_⟩
  rw [← lo8_eq_ofNat p.length]
  rfl

/-- Truncating after every addition gives what truncating once at the end gives (R101). -/
theorem foldl_add_eq_csum (s : List Byte) (acc : Byte) : s.foldl (fun acc b => acc + b) acc = acc + csum s := by
  induction s generalizing acc with
  | nil => simp
  | cons b s ih => simp [ih, BitVec.add_assoc]

theorem csum_perm {s s' : List Byte} (h : s'.Perm s) : csum s' = csum s := by
  apply BitVec.eq_of_toNat_eq
  rw [csum_toNat, csum_toNat, (h.map BitVec.toNat).sum_eq]

/-- Settles O6: the accumulator holds CSUM of the bytes it has seen, which is a sum of naturals modulo 256. -/
theorem checksumByAccumulatorInAnyOrder : Obligations.ChecksumByAccumulatorInAnyOrder := by
  refine ⟨fun s s' h => ?_, fun s t => ?_, fun s s' h => csum_perm h, fun n v => ?_⟩
  · rw [foldl_add_eq_csum, csum_perm h]
    simp
  · rw [csum_append, BitVec.toNat_add]
  · rw [csum_toNat, List.map_replicate, List.sum_replicate, smul_eq_mul]

/-- With the other bytes given, the checksum determines the byte in one place (R102). -/
theorem csum_change_iff (a z : List Byte) (b b' : Byte) : csum (a ++ b :: z) = csum (a ++ b' :: z) ↔ b = b' := by
  simp [csum_append]

/-- Settles O7: a byte can be cancelled from a sum modulo 256, and so can two opposite differences. -/
theorem oneChangedByteChangesTheChecksum : Obligations.OneChangedByteChangesTheChecksum := by
  refine ⟨fun a z b b' hne h => hne ((csum_change_iff a z b b').1 h), fun a m z b c k => ?_⟩
  simp only [csum_append, csum_cons]
  ring

end Sys2Proof.Machine

/-! PROOFS. ENCODE (spec/40_encode.md R103 to R105). -/

namespace Sys2Proof.Machine

open Config

theorem exec_opEncode_tooLong {params : List Byte} (hp : MAX_PARAM_LEN < params.length) (cmd : Byte) (s : State) :
    exec (.opEncode cmd params) s = .next (s.answer (.error (.encodingError params.length))) := by
  simp only [exec, execEncode, Encoder.encode_error _ hp]

/-- Settles O8, by the length check. -/
theorem encodeAnswersTheFrameOrAnError : Obligations.EncodeAnswersTheFrameOrAnError :=
  fun s cmd _ => ⟨fun hp => exec_opEncode hp cmd s, fun hp => exec_opEncode_tooLong hp cmd s⟩

/-- A frame is its header, the bytes its checksum covers, the checksum and the trailer (spec/30_encoding.md R70, R75). -/
theorem frameBytes_eq_coveredBytes (type cmd : Byte) (params : List Byte) :
    frameBytes type cmd params =
      HDR :: (coveredBytes type cmd params ++ [frameChecksum type cmd params, TRL]) := by
  simp [frameBytes, coveredBytes]

theorem coveredBytes_length (type cmd : Byte) (params : List Byte) :
    (coveredBytes type cmd params).length = 4 + params.length := by
  simp [coveredBytes]; omega

/-- Offsets 1 to 4 + L of a frame are the bytes its checksum covers (spec/30_encoding.md R75). -/
theorem frameBytes_covered (type cmd : Byte) (params : List Byte) :
    ((frameBytes type cmd params).drop 1).take (4 + params.length) = coveredBytes type cmd params := by
  rw [frameBytes_eq_coveredBytes, ← coveredBytes_length type cmd params]
  simp

/-- Settles O9: the frame is its fields in wire order. -/
theorem encodeResultFields : Obligations.EncodeResultFields := by
  intro s cmd params hp
  refine ⟨frameBytes TYPE_COMMAND cmd params, exec_opEncode hp cmd s, frameBytes_length _ _ _, rfl, rfl, rfl,
    ⟨hi8 params.length, lo8 params.length, rfl, rfl, ?_⟩, ?_, ?_, ?_⟩
  · rw [← u16be_toNat, u16be_hi8_lo8 _ hp]
  · simp [frameBytes]
  · rw [frameBytes_covered]
    simp [frameBytes, frameChecksum, Nat.add_comm 5]
  · simp [frameBytes, Nat.add_comm 6]

end Sys2Proof.Machine

/-! PROOFS. What reaches the wire (spec/40_encode.md R108; spec/43_session.md R168): only a `write` sends, and what waits at
a `write` is a command frame. -/

namespace Sys2Proof.Machine

open Config

/-- From `w` to `w'` the wire has grown by some first bytes of a command frame, perhaps none. -/
def CommandSent (w w' : List Byte) : Prop :=
  ∃ (cmd : Byte) (params : List Byte) (k : Nat), params.length ≤ MAX_PARAM_LEN ∧
    w' = w ++ (frameBytes TYPE_COMMAND cmd params).take k

theorem CommandSent.of_eq {w w' : List Byte} (h : w' = w) : CommandSent w w' :=
  ⟨0, [], 0, Nat.zero_le _, by simp [h]⟩

/-! The operations that leave the wire as it is. -/

@[simp] theorem State.written_wire (s : State) : s.written.chan.wire = s.chan.wire := by
  unfold State.written
  split <;> rfl

@[simp] theorem State.drained_wire (o : Drain) (s : State) : (s.drained o).chan.wire = s.chan.wire := by
  cases o <;> rfl

@[simp] theorem State.endDecode_wire (r : StopReason) (s : State) : (s.endDecode r).chan.wire = s.chan.wire := by
  unfold State.endDecode
  split <;> rfl

@[simp] theorem State.runDispatch_wire (s : State) : s.runDispatch.chan.wire = s.chan.wire := by
  unfold State.runDispatch
  split <;> rfl

@[simp] theorem State.runDecode_wire (s : State) : s.runDecode.chan.wire = s.chan.wire := by
  unfold State.runDecode
  split
  · simp
  · rfl

@[simp] theorem State.drainAll_wire (s : State) : s.drainAll.chan.wire = s.chan.wire := by
  simp [State.drainAll]

@[simp] theorem State.readOne_wire (a : ReadAnswer) (rs : List ReadAnswer) (s : State) :
    (s.readOne a rs).chan.wire = s.chan.wire := by
  simp [State.readOne]

@[simp] theorem State.runReceive_wire (s : State) : s.runReceive.chan.wire = s.chan.wire := by
  unfold State.runReceive
  split
  · simp
  · rfl

@[simp] theorem State.closeChannel_wire (s : State) : s.closeChannel.chan.wire = s.chan.wire := by
  simp [State.closeChannel]

theorem exec_toInstr_wire {s t : State} {w : WireFrame} (h : exec w.toInstr s = .next t) :
    t.chan.wire = s.chan.wire := by
  by_cases hc : w.type = .command
  · rw [exec_toInstr_command hc] at h; cases h; simp
  · rw [exec_toInstr_accepted hc] at h; cases h; rfl

/-! The operations that send. -/

/-- The channel accepts some first bytes of TXBUF (R168). -/
theorem State.write_wire {s t : State} (h : s.write = .next t) :
    ∃ k, t.chan.wire = s.chan.wire ++ s.enc.txbuf.take k := by
  rcases s.write_cases with ⟨_, hw⟩ | ⟨n, _, _, _, hw⟩ | ⟨_, _, hw⟩ | ⟨n, _, _, _, hw⟩ | ⟨_, _, _, _, hw⟩
  all_goals rw [hw] at h; cases h
  · exact ⟨0, by simp⟩
  · exact ⟨n, rfl⟩
  · exact ⟨s.enc.txbuf.length, by simp⟩
  · exact ⟨n, rfl⟩

theorem State.sendFrame_commandSent {s t : State} {cmd : Byte} {params : List Byte}
    (h : s.sendFrame cmd params = .next t) : CommandSent s.chan.wire t.chan.wire := by
  rcases State.sendFrame_cases cmd params s with ⟨_, hs⟩ | ⟨hp, hs⟩
  · rw [hs] at h; cases h; exact .of_eq rfl
  · rw [hs, Encoder.emitFrame_eq] at h
    obtain ⟨k, hk⟩ := State.write_wire h
    exact ⟨cmd, params, k, hp, hk⟩

theorem State.Inv.write_commandSent {s t : State} (h : s.Inv) (hp : s.point = .write) (ht : s.write = .next t) :
    CommandSent s.chan.wire t.chan.wire := by
  obtain ⟨cmd, params, hlen, htx⟩ := h.outgoing hp
  obtain ⟨k, hk⟩ := State.write_wire ht
  exact ⟨cmd, params, k, hlen, htx ▸ hk⟩

/-- Of the requests, SEND and READTAGS put their frame on the wire, the others nothing. -/
theorem exec_request_commandSent {s t : State} {q : Request} {i : Instr} (hi : decodeRequest q = some i)
    (h : exec i s = .next t) : CommandSent s.chan.wire t.chan.wire := by
  rcases exec_request_cases hi h with ⟨_, _, rfl⟩ | ⟨_, _, rfl⟩ | ⟨r, _, rfl⟩ | ⟨_, _, hs⟩ | ⟨_, _, rfl⟩ |
    ⟨_, _, u, hu, rfl⟩
  · exact .of_eq rfl
  · exact .of_eq (State.closeChannel_wire s)
  · exact .of_eq rfl
  · exact State.sendFrame_commandSent (s := s.start .send .write) hs
  · exact .of_eq (by simp)
  · rw [State.runReceive_wire]
    exact State.sendFrame_commandSent (s := s.start .readTags .write) hu

/-- Settles O48, by the cases of a step: a request, a `write`, and the moves that send nothing. -/
theorem onlyCommandFramesReachTheWire : Obligations.OnlyCommandFramesReachTheWire := by
  intro s t h ht
  change CommandSent s.chan.wire t.chan.wire
  rcases step_cases s with ⟨_, qs, _, _, hi, hs⟩ | ⟨_, _, _, _, hs⟩ | ⟨_, _, hs⟩ | ⟨_, hp, _, hs⟩ | ⟨a, rs, _, _, _, hs⟩ |
    ⟨_, _, _, _, hs⟩ | ⟨_, _, _, _, hs⟩ | ⟨_, _, _, hs⟩ | ⟨_, _, _, _, _, _, hi, hs⟩ | ⟨_, _, _, _, _, _, hs⟩
  all_goals rw [hs] at ht
  · exact exec_request_commandSent (s := { s with port := qs }) hi ht
  · cases ht
  · cases ht; exact .of_eq rfl
  · exact h.write_commandSent hp ht
  · cases ht; exact .of_eq (State.readOne_wire a rs s)
  · exact .of_eq (exec_toInstr_wire ht)
  · cases ht; exact .of_eq (State.endDecode_wire _ _)
  · cases ht; exact .of_eq rfl
  · rw [exec_of_decodeCommand hi] at ht; cases ht; exact .of_eq rfl
  · cases ht; exact .of_eq rfl

end Sys2Proof.Machine

/-! PROOFS. DECODE1, test by test (spec/41_decode.md R120 to R126): where it stops, and what it accepts. -/

namespace Sys2Proof

open Config

/-- The bytes at which DECODE1 stops, by the test that stops it (R120 to R123). -/
inductive StopsAt : List Byte → StopReason → Prop
  | endOfBuffer : StopsAt [] .endOfBuffer
  | badHeader {h : Byte} {bs : List Byte} (hh : h ≠ HDR) : StopsAt (h :: bs) .badHeader
  | noType : StopsAt [HDR] .truncatedFrame
  | badType {t : Byte} {bs : List Byte} (h1 : t ≠ TYPE_RESPONSE) (h2 : t ≠ TYPE_NOTIFICATION) :
      StopsAt (HDR :: t :: bs) .badType
  | truncated {ty : FrameType} {bs : List Byte} (ht : ty ≠ .command) (hb : takeBody bs = none) :
      StopsAt (HDR :: ty.code :: bs) .truncatedFrame

/-- A frame that DECODE1 accepts: a response or a notification whose length fits its field (R122, R124). -/
def WireFrame.Received (w : WireFrame) : Prop :=
  w.type ≠ .command ∧ w.parameters.length ≤ MAX_PARAM_LEN

theorem FrameType.code_of_ne_command {ty : FrameType} (h : ty ≠ .command) :
    ty.code = TYPE_RESPONSE ∨ ty.code = TYPE_NOTIFICATION := by
  cases ty with
  | command => exact absurd rfl h
  | response => exact .inl rfl
  | notification => exact .inr rfl

/-- The two accepted type bytes are those of a response and a notification (R77, R122). -/
theorem FrameType.exists_code_eq {t : Byte} (h : t = TYPE_RESPONSE ∨ t = TYPE_NOTIFICATION) :
    ∃ ty : FrameType, ty ≠ .command ∧ ty.code = t := by
  rcases h with rfl | rfl
  · exact ⟨.response, by decide, rfl⟩
  · exact ⟨.notification, by decide, rfl⟩

/-- Bytes begin with an accepted frame or stop DECODE1. -/
theorem received_or_stopsAt (bs : List Byte) :
    (∃ w more, WireFrame.Received w ∧ bs = w.bytes ++ more) ∨ ∃ r, StopsAt bs r := by
  have hcode : ∀ ty : FrameType, ty = .response ∨ ty = .notification → ty ≠ .command := by
    rintro ty (rfl | rfl) <;> decide
  rcases decodeFrame_cases bs with ⟨rfl, _⟩ | ⟨h, t, rfl, hh, _⟩ | ⟨rfl, _⟩ | ⟨t, more, rfl, h1, h2, _⟩ |
    ⟨ty, more, rfl, ht, hb, _⟩ | ⟨ty, more, c, p, cs, tr, rfl, ht, hb, _⟩
  · exact .inr ⟨_, .endOfBuffer⟩
  · exact .inr ⟨_, .badHeader hh⟩
  · exact .inr ⟨_, .noType⟩
  · exact .inr ⟨_, .badType h1 h2⟩
  · exact .inr ⟨_, .truncated (hcode ty ht) hb⟩
  · obtain ⟨hp, rest, rfl⟩ := takeBody_eq_some.1 hb
    exact .inl ⟨⟨ty, c, p, cs, tr⟩, rest, ⟨hcode ty ht, hp⟩, by simp [WireFrame.bytes]⟩

/-- What the frame decoder answers where DECODE1 stops: a whole command frame is read, and not accepted (R122). -/
theorem StopsAt.decodeFrame {bs : List Byte} {r : StopReason} (h : StopsAt bs r) :
    decodeFrame bs = .error r ∨ r = .badType ∧ ∃ w, decodeFrame bs = .ok w ∧ w.type = .command := by
  cases h with
  | endOfBuffer => exact .inl rfl
  | badHeader hh => simp only [Sys2Proof.decodeFrame, if_neg hh, true_or]
  | noType => exact .inl rfl
  | @badType t bs h1 h2 =>
    by_cases ht : t = TYPE_COMMAND
    · subst ht
      cases hb : takeBody bs with
      | none => exact .inl (by simp [Sys2Proof.decodeFrame, FrameType.ofByte, hb])
      | some body => exact .inr ⟨rfl, _, by simp [Sys2Proof.decodeFrame, FrameType.ofByte, hb]; rfl, rfl⟩
    · have htype : FrameType.ofByte t = none := by simp only [FrameType.ofByte, if_neg ht, if_neg h1, if_neg h2]
      exact .inl (by simp [Sys2Proof.decodeFrame, htype])
  | truncated ht hb => exact .inl (by simp [Sys2Proof.decodeFrame, ht, hb])

/-- No byte is left exactly when DECODE1 stops for it (R120). -/
theorem StopsAt.eq_nil_iff {bs : List Byte} {r : StopReason} (h : StopsAt bs r) : bs = [] ↔ r = .endOfBuffer := by
  cases h <;> simp

/-- Too few bytes for the command and length, or fewer than the length asks for (R123). -/
theorem takeBody_eq_none_iff {bs : List Byte} :
    takeBody bs = none ↔
      bs.length < 3 ∨ ∃ c h l body, bs = c :: h :: l :: body ∧ body.length < (u16be h l).toNat + 2 := by
  refine ⟨takeBody_eq_none, fun hshort => ?_⟩
  cases hb : takeBody bs with
  | none => rfl
  | some b =>
    obtain ⟨c, p, cs, tr⟩ := b
    obtain ⟨hp, more, rfl⟩ := takeBody_eq_some.1 hb
    rcases hshort with hshort | ⟨c', h, l, body, hbytes, hshort⟩
    · simp at hshort
      omega
    · obtain ⟨-, rfl, rfl, rfl⟩ : c = c' ∧ hi8 p.length = h ∧ lo8 p.length = l ∧ p ++ [cs, tr] ++ more = body := by
        simpa using hbytes
      rw [u16be_hi8_lo8 _ hp] at hshort
      simp at hshort

/-- An accepted type, a command, a length and as many bytes as it asks for are a frame that DECODE1 accepts (R124). -/
theorem exists_received_of_prefix {ty : FrameType} (ht : ty ≠ .command) {c h l : Byte} {body : List Byte}
    (hlen : (u16be h l).toNat + 2 ≤ body.length) :
    ∃ p cs tr more, p.length = (u16be h l).toNat ∧ WireFrame.Received ⟨ty, c, p, cs, tr⟩ ∧
      HDR :: ty.code :: c :: h :: l :: body = WireFrame.bytes ⟨ty, c, p, cs, tr⟩ ++ more := by
  have hsome : takeBody (c :: h :: l :: body) ≠ none := fun hnone => by
    rcases takeBody_eq_none_iff.1 hnone with hshort | ⟨c', h', l', body', hbytes, hshort⟩
    · simp only [List.length_cons] at hshort
      omega
    · cases hbytes
      omega
  obtain ⟨⟨c', p, cs, tr⟩, hb⟩ := Option.ne_none_iff_exists'.1 hsome
  obtain ⟨hp, more, hbytes⟩ := takeBody_eq_some.1 hb
  obtain ⟨rfl, rfl, rfl, rfl⟩ : c = c' ∧ h = hi8 p.length ∧ l = lo8 p.length ∧ body = p ++ [cs, tr] ++ more := by
    simpa using hbytes
  exact ⟨p, cs, tr, more, (u16be_hi8_lo8 _ hp).symm, ⟨ht, hp⟩, by simp [WireFrame.bytes]⟩

end Sys2Proof

namespace Sys2Proof.Machine

open Config

/-! DECODE1 by the bytes from CURSOR on. -/

theorem Decoder.decode1_of_stopsAt {d : Decoder} {bs : List Byte} {r : StopReason} (h : StopsAt bs r)
    (hrem : d.remaining = bs) : d.decode1 = (d.latch, some r) := by
  subst hrem
  rcases h.decodeFrame with h | ⟨rfl, w, h, ht⟩
  · simp only [Decoder.decode1, h]
  · simp only [Decoder.decode1, h, ht]

theorem Decoder.decode1_of_received {d : Decoder} {w : WireFrame} {more : List Byte} (hw : w.Received)
    (h : d.remaining = w.bytes ++ more) : d.decode1 = (d.accept w, none) := by
  obtain ⟨ht, hp⟩ := hw
  have hframe : decodeFrame d.remaining = .ok w := by rw [h]; exact decodeFrame_bytes_append hp more
  obtain ⟨type, c, p, cs, tr⟩ := w
  cases type with
  | command => exact absurd rfl ht
  | response => simp only [Decoder.decode1, hframe]
  | notification => simp only [Decoder.decode1, hframe]

/-! The registers written by a DECODE1 that stops (R126). -/

theorem Decoder.latch_of_badHeader {d : Decoder} {h : Byte} {bs : List Byte} (hrem : d.remaining = h :: bs)
    (hh : h ≠ HDR) : d.latch = d := by
  unfold Decoder.latch
  rw [hrem]
  cases bs with
  | nil => rfl
  | cons t bs => exact if_neg hh

theorem Decoder.latch_of_badType {d : Decoder} {t : Byte} {bs : List Byte} (hrem : d.remaining = HDR :: t :: bs)
    (h1 : t ≠ TYPE_RESPONSE) (h2 : t ≠ TYPE_NOTIFICATION) : d.latch = { d with dType := t } := by
  unfold Decoder.latch
  rw [hrem]
  exact (if_pos rfl).trans (if_neg (not_or.2 ⟨h1, h2⟩))

theorem Decoder.latch_of_noPrefix {d : Decoder} {t : Byte} {bs : List Byte} (hrem : d.remaining = HDR :: t :: bs)
    (ht : t = TYPE_RESPONSE ∨ t = TYPE_NOTIFICATION) (hbs : bs.length < 3) : d.latch = { d with dType := t } := by
  unfold Decoder.latch
  rw [hrem]
  refine (if_pos rfl).trans ((if_pos ht).trans ?_)
  match bs, hbs with
  | [], _ => rfl
  | [_], _ => rfl
  | [_, _], _ => rfl

theorem Decoder.latch_of_prefix {d : Decoder} {t c h l : Byte} {bs : List Byte}
    (hrem : d.remaining = HDR :: t :: c :: h :: l :: bs) (ht : t = TYPE_RESPONSE ∨ t = TYPE_NOTIFICATION) :
    d.latch = { d with dType := t, dCmd := c, dLen := u16be h l } := by
  unfold Decoder.latch
  rw [hrem]
  exact (if_pos rfl).trans (if_pos ht)

/-- What the fields of a frame at CURSOR are by their offsets (spec/30_encoding.md R70, R75). -/
theorem Decoder.fields_of_remaining {d : Decoder} {w : WireFrame} {more : List Byte}
    (h : d.remaining = w.bytes ++ more) :
    d.rxbuf[d.cursor + 5 + w.parameters.length]? = some w.checksum ∧
      d.memRead (d.cursor + 5) w.parameters.length = w.parameters ∧
      d.memRead (d.cursor + 1) (4 + w.parameters.length) = coveredBytes w.type.code w.command w.parameters := by
  have hread : ∀ i n, d.memRead (d.cursor + i) n = (d.remaining.drop i).take n := fun i n => by
    simp [Decoder.memRead, Decoder.remaining]
  have hbyte : d.rxbuf[d.cursor + (5 + w.parameters.length)]? = d.remaining[5 + w.parameters.length]? := by
    simp [Decoder.remaining]
  refine ⟨?_, ?_, ?_⟩
  · rw [Nat.add_assoc, hbyte, h]
    simp [WireFrame.bytes, Nat.add_comm 5]
  · rw [hread, h]
    simp [WireFrame.bytes]
  · rw [hread, h]
    simp [WireFrame.bytes, coveredBytes, Nat.add_comm 4]

/-- The byte at an offset is the first of the bytes from there on. -/
theorem drop_eq_cons_of_getElem? {α : Type} {l : List α} {i : Nat} {a : α} (h : l[i]? = some a) :
    l.drop i = a :: l.drop (i + 1) := by
  obtain ⟨hi, rfl⟩ := List.getElem?_eq_some_iff.1 h
  exact List.drop_eq_getElem_cons hi

/-- Settles O10: the bytes at CURSOR stop DECODE1 at the first test they fail, or begin with a frame it accepts. -/
theorem decode1FollowsItsTests : Obligations.Decode1FollowsItsTests := by
  intro d hd
  have hlen : d.remaining.length = d.rxbuf.length - d.cursor := by simp [Decoder.remaining]
  have hone : ∀ {h}, d.rxbuf[d.cursor]? = some h → d.remaining = h :: d.rxbuf.drop (d.cursor + 1) :=
    drop_eq_cons_of_getElem?
  have htwo : ∀ {h t}, d.rxbuf[d.cursor]? = some h → d.rxbuf[d.cursor + 1]? = some t →
      d.remaining = h :: t :: d.rxbuf.drop (d.cursor + 2) := fun hh ht => by
    rw [hone hh, drop_eq_cons_of_getElem? ht]
  refine ⟨fun hempty => ?_, fun h hh hne => ?_, fun hh hshort => ?_, fun t hh ht h1 h2 => ?_,
    fun t hh ht htype => ⟨fun hshort => ?_, fun c h l hc hhi hlo len hn => ?_⟩⟩
  · have hrem : d.remaining = [] := List.eq_nil_of_length_eq_zero (hlen.trans hempty)
    rw [Decoder.decode1_of_stopsAt .endOfBuffer hrem, Decoder.latch, hrem]
  · rw [Decoder.decode1_of_stopsAt (.badHeader hne) (hone hh), Decoder.latch_of_badHeader (hone hh) hne]
  · have hrem : d.remaining = [HDR] := by
      rw [hone hh, List.drop_eq_nil_of_le (by omega)]
    rw [Decoder.decode1_of_stopsAt .noType hrem, Decoder.latch, hrem]
  · rw [Decoder.decode1_of_stopsAt (.badType h1 h2) (htwo hh ht), Decoder.latch_of_badType (htwo hh ht) h1 h2]
  · obtain ⟨ty, hty, rfl⟩ := FrameType.exists_code_eq htype
    have hbody : (d.rxbuf.drop (d.cursor + 2)).length < 3 := by simp; omega
    rw [Decoder.decode1_of_stopsAt (.truncated hty (takeBody_eq_none_iff.2 (.inl hbody))) (htwo hh ht),
      Decoder.latch_of_noPrefix (htwo hh ht) htype hbody]
  · obtain ⟨ty, hty, rfl⟩ := FrameType.exists_code_eq htype
    have hrem : d.remaining = HDR :: ty.code :: c :: h :: l :: d.rxbuf.drop (d.cursor + 5) := by
      rw [htwo hh ht, drop_eq_cons_of_getElem? hc, drop_eq_cons_of_getElem? hhi, drop_eq_cons_of_getElem? hlo]
    have hfield : BitVec.ofNat 16 len = u16be h l := hn ▸ rfl
    rw [← u16be_toNat] at hn
    subst hn
    refine ⟨fun hshort => ?_, fun hwhole => ?_⟩
    · have hbody : takeBody (c :: h :: l :: d.rxbuf.drop (d.cursor + 5)) = none :=
        takeBody_eq_none_iff.2 (.inr ⟨c, h, l, _, rfl, by simp; omega⟩)
      rw [Decoder.decode1_of_stopsAt (.truncated hty hbody) hrem, Decoder.latch_of_prefix hrem htype, hfield]
    · obtain ⟨p, cs, tr, more, hp, hw, hbytes⟩ := exists_received_of_prefix hty (c := c) (h := h) (l := l)
        (body := d.rxbuf.drop (d.cursor + 5)) (by simp; omega)
      rw [hbytes] at hrem
      obtain ⟨hcs, hparams, hcovered⟩ := Decoder.fields_of_remaining hrem
      rw [← hp]
      refine ⟨cs, hcs, ?_⟩
      rw [Decoder.decode1_of_received hw hrem, hparams, hcovered]
      rfl

end Sys2Proof.Machine

/-! PROOFS. DECODE as the frames it takes and the bytes at which it stops (spec/41_decode.md R128, R131 to R133). -/

namespace Sys2Proof.Machine

open Config

/-- The bytes of some frames, in order. -/
def wireBytes (ws : List WireFrame) : List Byte := (ws.map WireFrame.bytes).flatten

@[simp] theorem wireBytes_nil : wireBytes [] = [] := rfl

@[simp] theorem wireBytes_cons (w : WireFrame) (ws : List WireFrame) : wireBytes (w :: ws) = w.bytes ++ wireBytes ws := rfl

@[simp] theorem wireBytes_append (ws vs : List WireFrame) : wireBytes (ws ++ vs) = wireBytes ws ++ wireBytes vs := by
  simp [wireBytes]

@[simp] theorem wireBytes_length (ws : List WireFrame) : (wireBytes ws).length = extentLength ws := by
  induction ws with
  | nil => rfl
  | cons w ws ih => simp [ih]

theorem drop_wireBytes_append (ws : List WireFrame) (more : List Byte) :
    (wireBytes ws ++ more).drop (extentLength ws) = more := List.drop_left' (wireBytes_length ws)

theorem take_wireBytes_append (ws : List WireFrame) (more : List Byte) :
    (wireBytes ws ++ more).take (extentLength ws) = wireBytes ws := List.take_left' (wireBytes_length ws)

/-- A frame takes up at least 7 bytes (R131). -/
theorem seven_mul_length_le (ws : List WireFrame) : 7 * ws.length ≤ extentLength ws := by
  induction ws with
  | nil => simp
  | cons w ws ih =>
    rw [List.length_cons, extentLength_cons]
    omega

/-- Every buffer is the bytes of some accepted frames and then bytes at which DECODE1 stops. -/
theorem exists_frames_and_rest (buf : List Byte) :
    ∃ ws rest r, buf = wireBytes ws ++ rest ∧ (∀ w ∈ ws, w.Received) ∧ StopsAt rest r := by
  induction hn : buf.length using Nat.strong_induction_on generalizing buf with
  | _ n ih =>
    rcases received_or_stopsAt buf with ⟨w, more, hw, rfl⟩ | ⟨r, hr⟩
    · obtain ⟨ws, rest, r, rfl, hws, hr⟩ := ih more.length (by simp at hn; omega) more rfl
      exact ⟨w :: ws, rest, r, by simp, by simpa using ⟨hw, hws⟩, hr⟩
    · exact ⟨[], buf, r, rfl, by simp, hr⟩

/-- The decode loop takes those frames and stops there, if it has passes enough. -/
theorem parse_wireBytes_append {ws : List WireFrame} (hws : ∀ w ∈ ws, w.Received) {rest : List Byte} {r : StopReason}
    (hr : StopsAt rest r) {n : Nat} (hn : ws.length + rest.length ≤ n) : parse n (wireBytes ws ++ rest) = (ws, r) := by
  induction ws generalizing n with
  | nil =>
    cases n with
    | zero =>
      obtain rfl : rest = [] := List.eq_nil_of_length_eq_zero (by simpa using hn)
      rw [hr.eq_nil_iff.1 rfl]
      rfl
    | succ n =>
      rcases hr.decodeFrame with h | ⟨rfl, w, h, ht⟩
      · simp [parse, h]
      · simp [parse, h, ht]
  | cons w ws ih =>
    obtain ⟨⟨ht, hp⟩, hws⟩ := List.forall_mem_cons.1 hws
    cases n with
    | zero => simp at hn
    | succ n =>
      have hn : ws.length + rest.length ≤ n := by simp at hn; omega
      have hframe : decodeFrame (wireBytes (w :: ws) ++ rest) = .ok w := by
        simpa using decodeFrame_bytes_append hp (wireBytes ws ++ rest)
      have hmore : (wireBytes (w :: ws) ++ rest).drop (w.parameters.length + 7) = wireBytes ws ++ rest := by
        rw [wireBytes_cons, List.append_assoc]
        exact List.drop_left' w.bytes_length
      simp only [parse, hframe, if_neg ht, hmore, ih hws hn]

/-- DECODE's result is those frames and that stop (R128). -/
theorem decodeBuffer_wireBytes_append {ws : List WireFrame} (hws : ∀ w ∈ ws, w.Received) {rest : List Byte}
    {r : StopReason} (hr : StopsAt rest r) :
    decodeBuffer (wireBytes ws ++ rest) =
      { frames := ws.map frameOf, stop := r, cursor := extentLength ws, rest := rest } := by
  have hpasses : ws.length + rest.length ≤ (wireBytes ws ++ rest).length := by
    have := seven_mul_length_le ws
    simp
    omega
  rw [decodeBuffer_eq, parse_wireBytes_append hws hr hpasses, drop_wireBytes_append]

theorem decodeBuffer_of_stopsAt {buf : List Byte} {r : StopReason} (hr : StopsAt buf r) :
    decodeBuffer buf = { frames := [], stop := r, cursor := 0, rest := buf } :=
  decodeBuffer_wireBytes_append (ws := []) (by simp) hr

theorem decodeBuffer_wireBytes {ws : List WireFrame} (hws : ∀ w ∈ ws, w.Received) :
    decodeBuffer (wireBytes ws) =
      { frames := ws.map frameOf, stop := .endOfBuffer, cursor := extentLength ws, rest := [] } := by
  simpa using decodeBuffer_wireBytes_append hws .endOfBuffer

/-! DECODE1 after DECODE1 (R128). -/

/-- The decoder once some frames have been taken. -/
def Decoder.acceptAll (ws : List WireFrame) (d : Decoder) : Decoder := ws.foldl (fun d w => d.accept w) d

@[simp] theorem Decoder.acceptAll_nil (d : Decoder) : d.acceptAll [] = d := rfl

@[simp] theorem Decoder.acceptAll_cons (w : WireFrame) (ws : List WireFrame) (d : Decoder) :
    d.acceptAll (w :: ws) = (d.accept w).acceptAll ws := rfl

theorem Decoder.acceptAll_concat (ws : List WireFrame) (w : WireFrame) (d : Decoder) :
    d.acceptAll (ws ++ [w]) = (d.acceptAll ws).accept w := by
  simp [Decoder.acceptAll]

@[simp] theorem Decoder.acceptAll_frames (ws : List WireFrame) (d : Decoder) :
    (d.acceptAll ws).frames = d.frames ++ ws.map frameOf := by
  induction ws generalizing d with
  | nil => simp
  | cons w ws ih => simp [ih]

@[simp] theorem Decoder.acceptAll_cursor (ws : List WireFrame) (d : Decoder) :
    (d.acceptAll ws).cursor = d.cursor + extentLength ws := by
  induction ws generalizing d with
  | nil => rfl
  | cons w ws ih => simp [ih, Nat.add_assoc]

theorem Decoder.accept_remaining_of_bytes {w : WireFrame} {d : Decoder} {more : List Byte}
    (h : d.remaining = w.bytes ++ more) : (d.accept w).remaining = more := by
  rw [Decoder.accept_remaining, h]
  exact List.drop_left' w.bytes_length

theorem Decoder.acceptAll_remaining {ws : List WireFrame} {d : Decoder} {more : List Byte}
    (h : d.remaining = wireBytes ws ++ more) : (d.acceptAll ws).remaining = more := by
  induction ws generalizing d with
  | nil => exact h
  | cons w ws ih =>
    rw [wireBytes_cons, List.append_assoc] at h
    exact ih (Decoder.accept_remaining_of_bytes h)

/-- DECODE1 takes the frames one by one. -/
theorem Decoder.decode1_acceptAll_take {ws : List WireFrame} (hws : ∀ w ∈ ws, w.Received) {d : Decoder}
    {rest : List Byte} (h : d.remaining = wireBytes ws ++ rest) {k : Nat} (hk : k < ws.length) :
    (d.acceptAll (ws.take k)).decode1 = (d.acceptAll (ws.take (k + 1)), none) := by
  have hsplit : wireBytes ws = wireBytes (ws.take k) ++ (ws[k].bytes ++ wireBytes (ws.drop (k + 1))) := by
    rw [← wireBytes_cons, ← List.drop_eq_getElem_cons hk, ← wireBytes_append, List.take_append_drop]
  have hrem : (d.acceptAll (ws.take k)).remaining = ws[k].bytes ++ (wireBytes (ws.drop (k + 1)) ++ rest) :=
    Decoder.acceptAll_remaining (by rw [h, hsplit, List.append_assoc, List.append_assoc])
  rw [Decoder.decode1_of_received (hws _ (List.getElem_mem hk)) hrem, List.take_succ_eq_append_getElem hk,
    Decoder.acceptAll_concat]

/-- Settles O11: the frames at the head of the buffer are taken one by one, and what follows them stops DECODE1. -/
theorem decodeRepeatsDecode1UntilItStops : Obligations.DecodeRepeatsDecode1UntilItStops := by
  intro s buf
  obtain ⟨ws, rest, r, rfl, hws, hr⟩ := exists_frames_and_rest buf
  have hrem : (Decoder.ofBuffer (wireBytes ws ++ rest)).remaining = wireBytes ws ++ rest := rfl
  have hframes : ((Decoder.ofBuffer (wireBytes ws ++ rest)).acceptAll ws).frames = ws.map frameOf :=
    Decoder.acceptAll_frames ws _
  have hcursor : ((Decoder.ofBuffer (wireBytes ws ++ rest)).acceptAll ws).cursor = extentLength ws := by
    simp [Decoder.ofBuffer, Decoder.reset]
  refine ⟨ws.length, fun k => (Decoder.ofBuffer (wireBytes ws ++ rest)).acceptAll (ws.take k), r, ?_, rfl,
    fun k hk => Decoder.decode1_acceptAll_take hws hrem hk, ?_, ?_, ?_⟩
  · have := seven_mul_length_le ws
    simp
    omega
  · simp [Decoder.decode1_of_stopsAt hr (Decoder.acceptAll_remaining hrem)]
  · simp only [List.take_length, hframes, hcursor, drop_wireBytes_append, ← decodeBuffer_wireBytes_append hws hr]
    rfl
  · simp only [List.take_length, hcursor, drop_wireBytes_append]
    exact hr.eq_nil_iff

/-! The invariants of the result, and concatenation. -/

theorem extents_wireBytes (ws : List WireFrame) : Extents (ws.map frameOf) (wireBytes ws) := by
  induction ws with
  | nil => exact extents_nil
  | cons w ws ih => exact extents_append (extents_frameOf w) ih

/-- Settles O12: the cursor stands at the end of the frames taken. -/
theorem decodeResultInvariants : Obligations.DecodeResultInvariants := by
  intro buf
  obtain ⟨ws, rest, r, rfl, hws, hr⟩ := exists_frames_and_rest buf
  have hseven := seven_mul_length_le ws
  rw [decodeBuffer_wireBytes_append hws hr]
  refine ⟨by simp, ?_, ?_, ?_, ?_, by simp⟩
  · rw [take_wireBytes_append]
    exact extents_wireBytes ws
  · intro f hf
    obtain ⟨w, hw, rfl⟩ := List.mem_map.1 hf
    exact frameOf_wf (hws w hw).2 (hws w hw).1
  · simp
    omega
  · exact (drop_wireBytes_append ws rest).symm

/-- The concatenation law (R132): the frames of a buffer that is consumed whole come before those of the next one. -/
theorem decodeBuffer_append {a b : List Byte} {fa : List Frame}
    (ha : decodeBuffer a = { frames := fa, stop := .endOfBuffer, cursor := a.length, rest := [] }) :
    decodeBuffer (a ++ b) =
      { frames := fa ++ (decodeBuffer b).frames, stop := (decodeBuffer b).stop
        cursor := a.length + (decodeBuffer b).cursor, rest := (decodeBuffer b).rest } := by
  obtain ⟨ws, rest, r, rfl, hws, hr⟩ := exists_frames_and_rest a
  obtain ⟨vs, rest', r', rfl, hvs, hr'⟩ := exists_frames_and_rest b
  rw [decodeBuffer_wireBytes_append hws hr] at ha
  obtain ⟨rfl, -, -, rfl⟩ := DecodeResult.mk.inj ha
  have hboth : ∀ w ∈ ws ++ vs, w.Received := List.forall_mem_append.2 ⟨hws, hvs⟩
  rw [decodeBuffer_wireBytes_append hvs hr', List.append_nil, ← List.append_assoc, ← wireBytes_append,
    decodeBuffer_wireBytes_append hboth hr']
  simp [extentLength]

/-! One frame (R133). -/

theorem decodeBuffer_bytes {w : WireFrame} (hw : w.Received) :
    decodeBuffer w.bytes =
      { frames := [frameOf w], stop := .endOfBuffer, cursor := w.parameters.length + 7, rest := [] } := by
  simpa using decodeBuffer_wireBytes (ws := [w]) (by simpa using hw)

theorem frameBytes_eq_bytes (ty : FrameType) (c : Byte) (p : List Byte) :
    frameBytes ty.code c p = WireFrame.bytes ⟨ty, c, p, frameChecksum ty.code c p, TRL⟩ := rfl

/-- DECODE of a good frame (R132). -/
theorem decodeBuffer_frameBytes {t : Byte} (ht : t = TYPE_RESPONSE ∨ t = TYPE_NOTIFICATION) (c : Byte) {p : List Byte}
    (hp : p.length ≤ MAX_PARAM_LEN) :
    decodeBuffer (frameBytes t c p) =
      { frames := [⟨t, c, p, frameChecksum t c p, true⟩], stop := .endOfBuffer
        cursor := (frameBytes t c p).length, rest := [] } := by
  obtain ⟨ty, hty, rfl⟩ := FrameType.exists_code_eq ht
  rw [frameBytes_eq_bytes, decodeBuffer_bytes ⟨hty, hp⟩, WireFrame.bytes_length]
  simp [frameOf, checksumMatches]

/-- Settles O13, the case of N frames by N - 1 uses of the law. -/
theorem decodeOfAConcatenation : Obligations.DecodeOfAConcatenation := by
  refine ⟨fun a b fa ha => decodeBuffer_append ha, fun fs hfs => ?_⟩
  induction fs with
  | nil => exact decodeBuffer_of_stopsAt .endOfBuffer
  | cons f fs ih =>
    obtain ⟨⟨ht, hp⟩, hfs⟩ := List.forall_mem_cons.1 hfs
    rw [List.map_cons, List.flatten_cons, decodeBuffer_append (decodeBuffer_frameBytes ht f.2.1 hp), ih hfs,
      List.length_append]
    rfl

/-- A frame whose checksum byte is not the checksum of its fields is taken, and marked (R124). -/
theorem decodeBuffer_bytes_of_invalid {ty : FrameType} (hty : ty ≠ .command) {c cs : Byte} (tr : Byte) {p : List Byte}
    (hp : p.length ≤ MAX_PARAM_LEN) (hcs : frameChecksum ty.code c p ≠ cs) :
    decodeBuffer (WireFrame.bytes ⟨ty, c, p, cs, tr⟩) =
      { frames := [⟨ty.code, c, p, cs, false⟩], stop := .endOfBuffer, cursor := p.length + 7, rest := [] } := by
  rw [decodeBuffer_bytes ⟨hty, hp⟩, frameOf, checksumMatches, beq_eq_false_iff_ne.2 hcs]

/-- A frame cut short, of which a byte is left, stops DECODE1 (R123). -/
theorem stopsAt_take_bytes {w : WireFrame} (hw : w.Received) {n : Nat} (h0 : 0 < n)
    (hn : n < w.parameters.length + 7) : StopsAt (w.bytes.take n) .truncatedFrame := by
  obtain ⟨ht, hp⟩ := hw
  match n with
  | 1 => exact .noType
  | 2 | 3 | 4 => exact .truncated ht rfl
  | k + 5 =>
    have hbody : ((w.parameters ++ [w.checksum, w.trailer]).take k).length <
        (u16be (hi8 w.parameters.length) (lo8 w.parameters.length)).toNat + 2 := by
      rw [u16be_hi8_lo8 _ hp]
      simp
      omega
    exact .truncated ht (takeBody_eq_none_iff.2 (.inr ⟨_, _, _, _, rfl, hbody⟩))

/-! One byte of a good frame changed (R133). -/

theorem frameBytes_set_parameter {p : List Byte} {i : Nat} (hi : i < p.length) (ty : FrameType) (c b : Byte) :
    (frameBytes ty.code c p).set (5 + i) b =
      WireFrame.bytes ⟨ty, c, p.set i b, frameChecksum ty.code c p, TRL⟩ := by
  simp [frameBytes, WireFrame.bytes, hi, Nat.add_comm 5]

theorem frameBytes_set_checksum (ty : FrameType) (c cs : Byte) (p : List Byte) :
    (frameBytes ty.code c p).set (5 + p.length) cs = WireFrame.bytes ⟨ty, c, p, cs, TRL⟩ := by
  simp [frameBytes, WireFrame.bytes, Nat.add_comm 5]

theorem frameBytes_set_trailer (ty : FrameType) (c tr : Byte) (p : List Byte) :
    (frameBytes ty.code c p).set (6 + p.length) tr =
      WireFrame.bytes ⟨ty, c, p, frameChecksum ty.code c p, tr⟩ := by
  simp [frameBytes, WireFrame.bytes, Nat.add_comm 6]

/-- A changed parameter changes the checksum (spec/40_encode.md R102). -/
theorem frameChecksum_set_ne {p : List Byte} {i : Nat} {b : Byte} (hi : i < p.length) (hb : p[i]? ≠ some b)
    (t c : Byte) : frameChecksum t c (p.set i b) ≠ frameChecksum t c p := by
  have hne : b ≠ p[i] := fun h => hb (by simp [hi, h])
  have hp : p = p.take i ++ p[i] :: p.drop (i + 1) := by
    rw [← List.drop_eq_getElem_cons hi, List.take_append_drop]
  have hset : p.set i b = p.take i ++ b :: p.drop (i + 1) := by rw [List.set_eq_take_append_cons_drop, if_pos hi]
  have hcsum : csum (p.set i b) ≠ csum p := by
    rw [hset]
    conv_rhs => rw [hp]
    exact mt (csum_change_iff _ _ _ _).1 hne
  simpa [frameChecksum_eq] using hcsum

/-- Settles O14: with a field changed the frame is still taken; with the header or the type wrong, or the end missing, it
is not. -/
theorem decodeOfACorruptOrCutFrame : Obligations.DecodeOfACorruptOrCutFrame := by
  intro t c p ht hp
  obtain ⟨ty, hty, rfl⟩ := FrameType.exists_code_eq ht
  refine ⟨fun i b hb hi => ?_, fun c' hc => ?_, fun cs' hcs => ?_, fun tr' => ?_, fun h' hh => ?_, fun t' h1 h2 => ?_,
    fun t' ht' hne => ?_, fun k hk hk' => ?_⟩
  · have hp' : (p.set i b).length ≤ MAX_PARAM_LEN := by simpa using hp
    rw [frameBytes_set_parameter hi, decodeBuffer_bytes_of_invalid hty TRL hp' (frameChecksum_set_ne hi hb _ _),
      List.length_set]
  · have hcs : frameChecksum ty.code c' p ≠ frameChecksum ty.code c p := by simpa [frameChecksum_eq] using hc
    exact decodeBuffer_bytes_of_invalid hty TRL hp hcs
  · rw [frameBytes_set_checksum, decodeBuffer_bytes_of_invalid hty TRL hp hcs.symm]
  · rw [frameBytes_set_trailer, frameBytes_eq_bytes, decodeBuffer_bytes ⟨hty, hp⟩, decodeBuffer_bytes ⟨hty, hp⟩]
    rfl
  · exact decodeBuffer_of_stopsAt (.badHeader hh)
  · exact decodeBuffer_of_stopsAt (.badType h1 h2)
  · obtain ⟨ty', hty', rfl⟩ := FrameType.exists_code_eq ht'
    have hcs : frameChecksum ty'.code c p ≠ frameChecksum ty.code c p := by simpa [frameChecksum_eq] using hne
    exact decodeBuffer_bytes_of_invalid hty' TRL hp hcs
  · rw [frameBytes_eq_bytes]
    exact decodeBuffer_of_stopsAt (stopsAt_take_bytes ⟨hty, hp⟩ (by omega) (by simp only; omega))

end Sys2Proof.Machine

/-! PROOFS. The frame rows (spec/41_decode.md R122, R124 to R126). -/

namespace Sys2Proof.Machine

open Config

/-- Settles O18: the two accepted rows are one DECODE1 that takes a frame. -/
theorem acceptedFramesAreAppended : Obligations.AcceptedFramesAreAppended := by
  intro s cmd params cs tr
  constructor
  · exact exec_toInstr_accepted (w := ⟨.response, cmd, params, cs, tr⟩) (by simp) s
  · exact exec_toInstr_accepted (w := ⟨.notification, cmd, params, cs, tr⟩) (by simp) s

/-- Settles O19: a command frame is the end of the decode loop, which is the end of a RECEIVE and not of a READTAGS. -/
theorem commandFramesEndTheLoop : Obligations.CommandFramesEndTheLoop := by
  intro s cmd params cs tr
  have hend := exec_toInstr_command (w := ⟨.command, cmd, params, cs, tr⟩) rfl s
  refine ⟨fun hop => ?_, fun hop => ?_⟩
  · have hop : ({ s with dec := { s.dec with dType := TYPE_COMMAND } } : State).op ≠ some .readTags := by simp [hop]
    exact hend.trans (congrArg Host.Outcome.next (State.endDecode_receive _ hop))
  · exact hend.trans (congrArg Host.Outcome.next (State.endDecode_readTags .badType hop))

end Sys2Proof.Machine

/-! PROOFS. The byte-serial form's table, and the reads that drive it (spec/41_decode.md R135; spec/43_session.md R170). -/

namespace Sys2Proof.Machine

open Config

/-! `byte(b)` by phase. -/

section
variable {d : Decoder}

theorem Decoder.serialByte_header (h : d.dPhase = .hdr) :
    d.serialByte HDR = { d with rxbuf := d.rxbuf ++ [HDR], dAcc := 0, dPhase := .type } := by
  simp [Decoder.serialByte, Decoder.serialPhase, h]

theorem Decoder.serialByte_badHeader (h : d.dPhase = .hdr) {b : Byte} (hb : b ≠ HDR) :
    d.serialByte b = { d with rxbuf := d.rxbuf ++ [b], stop := .badHeader, dPhase := .stopped } := by
  simp only [Decoder.serialByte, Decoder.serialPhase, h, if_neg hb]

theorem Decoder.serialByte_type (h : d.dPhase = .type) {b : Byte} (hb : b = TYPE_RESPONSE ∨ b = TYPE_NOTIFICATION) :
    d.serialByte b = { d with rxbuf := d.rxbuf ++ [b], dType := b, dAcc := b, dPhase := .cmd } := by
  simp only [Decoder.serialByte, Decoder.serialPhase, h, if_pos hb]

theorem Decoder.serialByte_badType (h : d.dPhase = .type) {b : Byte} (h1 : b ≠ TYPE_RESPONSE)
    (h2 : b ≠ TYPE_NOTIFICATION) :
    d.serialByte b = { d with rxbuf := d.rxbuf ++ [b], stop := .badType, dPhase := .stopped } := by
  simp only [Decoder.serialByte, Decoder.serialPhase, h, if_neg (not_or.2 ⟨h1, h2⟩)]

theorem Decoder.serialByte_cmd (h : d.dPhase = .cmd) (b : Byte) :
    d.serialByte b = { d with rxbuf := d.rxbuf ++ [b], dCmd := b, dAcc := d.dAcc + b, dPhase := .lenH } := by
  simp only [Decoder.serialByte, Decoder.serialPhase, h]

theorem Decoder.serialByte_lenH (h : d.dPhase = .lenH) (b : Byte) :
    d.serialByte b =
      { d with rxbuf := d.rxbuf ++ [b], dLen := BitVec.ofNat 16 (256 * b.toNat), dAcc := d.dAcc + b, dPhase := .lenL } := by
  simp only [Decoder.serialByte, Decoder.serialPhase, h]

theorem Decoder.serialByte_lenL (h : d.dPhase = .lenL) (b : Byte) :
    d.serialByte b =
      { d with rxbuf := d.rxbuf ++ [b], dLen := d.dLen + b.setWidth 16, dAcc := d.dAcc + b, dCnt := 0, pbuf := []
               dPhase := if d.dLen + b.setWidth 16 = 0 then .csum else .param } := by
  simp only [Decoder.serialByte, Decoder.serialPhase, h]

theorem Decoder.serialByte_param (h : d.dPhase = .param) (b : Byte) :
    d.serialByte b =
      { d with rxbuf := d.rxbuf ++ [b], pbuf := d.pbuf ++ [b], dAcc := d.dAcc + b, dCnt := d.dCnt + 1
               dPhase := if d.dCnt + 1 = d.dLen then .csum else .param } := by
  simp only [Decoder.serialByte, Decoder.serialPhase, h]

theorem Decoder.serialByte_csum (h : d.dPhase = .csum) (b : Byte) :
    d.serialByte b = { d with rxbuf := d.rxbuf ++ [b], dCs := b, dPhase := .trl } := by
  simp only [Decoder.serialByte, Decoder.serialPhase, h]

theorem Decoder.serialByte_trl (h : d.dPhase = .trl) (b : Byte) :
    d.serialByte b =
      { d with frames := d.frames ++ [d.serialFrame], cursor := d.cursor + d.dLen.toNat + OVERHEAD, rxbuf := []
               dPhase := .hdr } := by
  simp only [Decoder.serialByte, Decoder.serialPhase, h]
  rfl

theorem Decoder.serialByte_stopped (h : d.dPhase = .stopped) (b : Byte) :
    d.serialByte b = { d with rxbuf := d.rxbuf ++ [b] } := by
  simp only [Decoder.serialByte, Decoder.serialPhase, h]

/-! The stop reason on `end`. -/

theorem Decoder.serialStop_hdr (h : d.dPhase = .hdr) : d.serialStop = .endOfBuffer := by
  simp only [Decoder.serialStop, h]

theorem Decoder.serialStop_stopped (h : d.dPhase = .stopped) : d.serialStop = d.stop := by
  simp only [Decoder.serialStop, h]

theorem Decoder.serialStop_inFrame (h1 : d.dPhase ≠ .hdr) (h2 : d.dPhase ≠ .stopped) :
    d.serialStop = .truncatedFrame := by
  unfold Decoder.serialStop
  split
  · contradiction
  · contradiction
  all_goals rfl

end

/-! The steps that drive it. -/

/-- An operation in flight with an empty port takes the answer to its `read` (R170). -/
theorem step_read {s : State} {a : ReadAnswer} {rs : List ReadAnswer} (hport : s.port = []) (hpoint : s.point = .read)
    (hreads : s.chan.reads = a :: rs) : step s = .next (s.readOne a rs) := by
  simp only [step, fetch, hport, fetchInFlight, hpoint, hreads]

theorem readOne_chunk {s : State} {b : Byte} {bs : List Byte} {rs : List ReadAnswer}
    (hcap : exceeds s.rxbufCap (s.rxlen + (bs.length + 1)) = false) :
    s.readOne (.chunk (b :: bs)) rs =
      { s with dec := { s.dec with rxbuf := s.dec.rxbuf ++ b :: bs }, chan := { s.chan with reads := rs }
               ser := (b :: bs).foldl Decoder.serialByte s.ser } := by
  have hdrain : drain s.rxbufCap s.dec.rxbuf [.chunk (b :: bs)] = (.waiting (s.dec.rxbuf ++ b :: bs), []) := by
    rw [drain, if_neg (by simpa [State.rxlen] using hcap), drain]
  have hnew : (s.dec.rxbuf ++ b :: bs).drop s.dec.rxbuf.length = b :: bs := List.drop_left
  simp only [State.readOne, hdrain, State.drained_waiting, State.hear, State.rxlen, hnew]

/-- The zero-count read gives the form its `end` and goes on to the decode loop (R128, R170). -/
theorem readOne_zero (s : State) (rs : List ReadAnswer) :
    s.readOne (.chunk []) rs =
      { s with dec := { s.dec with cursor := 0, frames := [] }, chan := { s.chan with reads := rs }, point := .decode
               ser := s.ser.serialEvent .finish } := by
  have hnew : s.dec.rxbuf.drop s.dec.rxbuf.length = [] := List.drop_length
  simp only [State.readOne, drain, State.drained_done, State.hear, State.rxlen, hnew, List.foldl_nil]

/-- Settles O17: the table's rows, the result on `end`, and the two reads. -/
theorem serialReceiverFollowsItsTable : Obligations.SerialReceiverFollowsItsTable := by
  refine ⟨fun e d t b hd ht => ?_, fun e => ⟨e.serialStop, rfl, Decoder.serialStop_hdr, Decoder.serialStop_stopped,
    Decoder.serialStop_inFrame⟩, fun s rs hport hpoint => ⟨fun b bs hreads hcap => ?_, fun hreads => ?_⟩⟩
  · subst hd ht
    rw [Decoder.serialEvent_byte]
    refine ⟨fun h hb => hb ▸ Decoder.serialByte_header h, fun h hb => Decoder.serialByte_badHeader h hb,
      fun h hb => Decoder.serialByte_type h hb, fun h h1 h2 => Decoder.serialByte_badType h h1 h2,
      fun h => Decoder.serialByte_cmd h b, fun h => Decoder.serialByte_lenH h b, fun h len hlen => ?_,
      fun h cnt hcnt => ?_, fun h => Decoder.serialByte_csum h b, fun h => Decoder.serialByte_trl h b,
      fun h => Decoder.serialByte_stopped h b⟩
    · have hlen : len = e.dLen + b.setWidth 16 := by rw [hlen]; apply BitVec.eq_of_toNat_eq; simp
      rw [Decoder.serialByte_lenL h, hlen]
    · have hcnt : cnt = e.dCnt + 1 := by rw [hcnt]; apply BitVec.eq_of_toNat_eq; simp
      rw [Decoder.serialByte_param h, hcnt]
  · rw [step_read hport hpoint hreads, readOne_chunk hcap]
    rfl
  · rw [step_read hport hpoint hreads, readOne_zero]

end Sys2Proof.Machine

/-! PROOFS. The byte-serial form is DECODE (spec/41_decode.md R136): it takes each accepted frame, and what stops DECODE1
leaves it in a phase of the same stop reason with the bytes of the rest. -/

namespace Sys2Proof.Machine

open Config

/-! A whole frame. -/

/-- The parameter bytes, at most as many as are still to come. -/
theorem foldl_serialByte_parameters (q : List Byte) {d : Decoder}
    (hphase : d.dPhase = if d.dCnt = d.dLen then .csum else .param) (hq : d.dCnt.toNat + q.length ≤ d.dLen.toNat) :
    q.foldl Decoder.serialByte d =
      { d with rxbuf := d.rxbuf ++ q, pbuf := d.pbuf ++ q, dAcc := d.dAcc + csum q
               dCnt := d.dCnt + BitVec.ofNat 16 q.length
               dPhase := if d.dCnt + BitVec.ofNat 16 q.length = d.dLen then .csum else .param } := by
  induction q generalizing d with
  | nil => simp [← hphase]
  | cons b q ih =>
    have hlen := d.dLen.isLt
    rw [List.length_cons] at hq
    have hparam : d.dPhase = .param := by
      rw [hphase, if_neg]
      intro heq
      rw [heq] at hq
      omega
    have hcnt : (d.dCnt + 1).toNat = d.dCnt.toNat + 1 := by
      rw [BitVec.toNat_add]
      simp
      omega
    have hsum : d.dCnt + 1 + BitVec.ofNat 16 q.length = d.dCnt + BitVec.ofNat 16 (q.length + 1) := by
      rw [BitVec.add_assoc, Nat.add_comm, BitVec.ofNat_add]
      rfl
    rw [List.foldl_cons, Decoder.serialByte_param hparam, ih rfl (by simp only [hcnt]; omega)]
    simp only [hsum, List.append_assoc, List.singleton_append, List.length_cons, csum_cons, BitVec.add_assoc]

/-- The first five bytes of an accepted frame. -/
theorem foldl_serialByte_prefix {d : Decoder} (hd : d.dPhase = .hdr) {ty : FrameType} (hty : ty ≠ .command)
    (c h l : Byte) :
    [HDR, ty.code, c, h, l].foldl Decoder.serialByte d =
      { d with rxbuf := d.rxbuf ++ [HDR, ty.code, c, h, l], dType := ty.code, dCmd := c, dLen := u16be h l
               dAcc := ty.code + c + h + l, dCnt := 0, pbuf := []
               dPhase := if 0 = u16be h l then .csum else .param } := by
  have hcode := FrameType.code_of_ne_command hty
  have hlen : BitVec.ofNat 16 (256 * h.toNat) + l.setWidth 16 = u16be h l := by
    rw [u16be, BitVec.ofNat_add, BitVec.ofNat_toNat]
  rw [List.foldl_cons, Decoder.serialByte_header hd, List.foldl_cons, Decoder.serialByte_type rfl hcode, List.foldl_cons,
    Decoder.serialByte_cmd rfl, List.foldl_cons, Decoder.serialByte_lenH rfl, List.foldl_cons, Decoder.serialByte_lenL rfl,
    List.foldl_nil]
  simp only [hlen, List.append_assoc, List.cons_append, List.nil_append, eq_comm]

/-- The first five bytes of an accepted frame and its parameters, all of them or the first ones. -/
theorem foldl_serialByte_prefix_parameters {d : Decoder} (hd : d.dPhase = .hdr) {ty : FrameType} (hty : ty ≠ .command)
    (c h l : Byte) {q : List Byte} (hq : q.length ≤ (u16be h l).toNat) :
    ([HDR, ty.code, c, h, l] ++ q).foldl Decoder.serialByte d =
      { d with rxbuf := d.rxbuf ++ ([HDR, ty.code, c, h, l] ++ q), dType := ty.code, dCmd := c, dLen := u16be h l
               dAcc := ty.code + c + h + l + csum q, dCnt := BitVec.ofNat 16 q.length, pbuf := q
               dPhase := if BitVec.ofNat 16 q.length = u16be h l then .csum else .param } := by
  rw [List.foldl_append, foldl_serialByte_prefix hd hty, foldl_serialByte_parameters q rfl (by simpa using hq)]
  simp

/-- The bytes of an accepted frame are one more Frame, and leave the form at the start of the next (R135). -/
theorem foldl_serialByte_bytes {w : WireFrame} (hw : w.Received) {d : Decoder} (hd : d.dPhase = .hdr) :
    w.bytes.foldl Decoder.serialByte d =
      { d.accept w with
        rxbuf := [], dCnt := BitVec.ofNat 16 w.parameters.length, pbuf := w.parameters, dPhase := .hdr } := by
  obtain ⟨ht, hp⟩ := hw
  obtain ⟨h, l, hh, hl⟩ : ∃ h l, hi8 w.parameters.length = h ∧ lo8 w.parameters.length = l := ⟨_, _, rfl, rfl⟩
  have hlen : (u16be h l).toNat = w.parameters.length := by rw [← hh, ← hl, u16be_hi8_lo8 _ hp]
  have hcnt : BitVec.ofNat 16 w.parameters.length = u16be h l := by rw [← hlen, BitVec.ofNat_toNat, BitVec.setWidth_eq]
  have hacc : w.type.code + w.command + h + l + csum w.parameters =
      frameChecksum w.type.code w.command w.parameters := by
    rw [frameChecksum_eq, hh, hl]
    ac_rfl
  rw [WireFrame.bytes, hh, hl, List.foldl_append, foldl_serialByte_prefix_parameters hd ht _ _ _ hlen.ge, List.foldl_cons,
    Decoder.serialByte_csum (if_pos hcnt), List.foldl_cons, Decoder.serialByte_trl rfl, List.foldl_nil]
  simp [Decoder.accept, Decoder.serialFrame, frameOf, checksumMatches, hcnt, hacc, hlen]

theorem foldl_serialByte_wireBytes {ws : List WireFrame} (hws : ∀ w ∈ ws, w.Received) {d : Decoder}
    (hd : d.dPhase = .hdr) (hx : d.rxbuf = []) :
    ∃ e, (wireBytes ws).foldl Decoder.serialByte d = e ∧ e.dPhase = .hdr ∧ e.rxbuf = [] ∧
      e.frames = d.frames ++ ws.map frameOf ∧ e.cursor = d.cursor + extentLength ws := by
  induction ws generalizing d with
  | nil => exact ⟨d, rfl, hd, hx, by simp, rfl⟩
  | cons w ws ih =>
    obtain ⟨hw, hws⟩ := List.forall_mem_cons.1 hws
    rw [wireBytes_cons, List.foldl_append, foldl_serialByte_bytes hw hd]
    obtain ⟨e, he, hphase, hrxbuf, hframes, hcursor⟩ := ih hws (d := { d.accept w with
      rxbuf := [], dCnt := BitVec.ofNat 16 w.parameters.length, pbuf := w.parameters, dPhase := .hdr }) rfl rfl
    exact ⟨e, he, hphase, hrxbuf, by simp [hframes], by simp [hcursor, Nat.add_assoc]⟩

/-! The bytes of a rest. -/

/-- After a bad byte every byte is only kept (R135). -/
theorem foldl_serialByte_stopped (bs : List Byte) {d : Decoder} (hd : d.dPhase = .stopped) :
    bs.foldl Decoder.serialByte d = { d with rxbuf := d.rxbuf ++ bs } := by
  induction bs generalizing d with
  | nil => simp
  | cons b bs ih => rw [List.foldl_cons, Decoder.serialByte_stopped hd, ih (by exact hd)]; simp

/-- Inside a frame the form is truncated. -/
theorem serialResult_inFrame {d : Decoder} (h1 : d.dPhase ≠ .hdr) (h2 : d.dPhase ≠ .stopped) :
    d.serialResult = { frames := d.frames, stop := .truncatedFrame, cursor := d.cursor, rest := d.rxbuf } := by
  rw [Decoder.serialResult, Decoder.serialStop_inFrame h1 h2]

/-- A frame cut short leaves the form inside it. -/
theorem serialResult_foldl_of_truncated {ty : FrameType} (hty : ty ≠ .command) {bs : List Byte} (hb : takeBody bs = none)
    {d : Decoder} (hd : d.dPhase = .hdr) (hx : d.rxbuf = []) :
    ((HDR :: ty.code :: bs).foldl Decoder.serialByte d).serialResult =
      { frames := d.frames, stop := .truncatedFrame, cursor := d.cursor, rest := HDR :: ty.code :: bs } := by
  rcases takeBody_eq_none hb with hshort | ⟨c, h, l, body, rfl, hshort⟩
  · have hcode := FrameType.code_of_ne_command hty
    rw [List.foldl_cons, Decoder.serialByte_header hd, List.foldl_cons, Decoder.serialByte_type rfl hcode]
    match bs, hshort with
    | [], _ =>
      rw [List.foldl_nil, serialResult_inFrame (by simp) (by simp), hx]
      rfl
    | [c], _ =>
      rw [List.foldl_cons, Decoder.serialByte_cmd rfl, List.foldl_nil, serialResult_inFrame (by simp) (by simp), hx]
      rfl
    | [c, h], _ =>
      rw [List.foldl_cons, Decoder.serialByte_cmd rfl, List.foldl_cons, Decoder.serialByte_lenH rfl, List.foldl_nil,
        serialResult_inFrame (by simp) (by simp), hx]
      rfl
  · by_cases hbody : body.length ≤ (u16be h l).toNat
    · have hbytes : HDR :: ty.code :: c :: h :: l :: body = [HDR, ty.code, c, h, l] ++ body := rfl
      rw [hbytes, foldl_serialByte_prefix_parameters hd hty c h l hbody,
        serialResult_inFrame (by simp only; split <;> decide) (by simp only; split <;> decide), hx]
      rfl
    · obtain ⟨q, cs, rfl⟩ : ∃ q cs, body = q ++ [cs] :=
        (List.eq_nil_or_concat' body).resolve_left (by rintro rfl; simp at hbody)
      have hq : q.length = (u16be h l).toNat := by simp at hbody hshort; omega
      have hcsum : BitVec.ofNat 16 q.length = u16be h l := by rw [hq, BitVec.ofNat_toNat, BitVec.setWidth_eq]
      have hbytes : HDR :: ty.code :: c :: h :: l :: (q ++ [cs]) = [HDR, ty.code, c, h, l] ++ q ++ [cs] := rfl
      rw [hbytes, List.foldl_append, foldl_serialByte_prefix_parameters hd hty c h l hq.le, List.foldl_cons,
        Decoder.serialByte_csum (if_pos hcsum), List.foldl_nil, serialResult_inFrame (by simp) (by simp), hx]
      rfl

theorem serialResult_foldl_of_stopsAt {rest : List Byte} {r : StopReason} (hr : StopsAt rest r) {d : Decoder}
    (hd : d.dPhase = .hdr) (hx : d.rxbuf = []) :
    (rest.foldl Decoder.serialByte d).serialResult = { frames := d.frames, stop := r, cursor := d.cursor, rest := rest } := by
  cases hr with
  | endOfBuffer => rw [List.foldl_nil, Decoder.serialResult, Decoder.serialStop_hdr hd, hx]
  | badHeader hh =>
    rw [List.foldl_cons, Decoder.serialByte_badHeader hd hh, foldl_serialByte_stopped _ rfl, Decoder.serialResult,
      Decoder.serialStop_stopped rfl, hx]
    rfl
  | noType =>
    rw [List.foldl_cons, List.foldl_nil, Decoder.serialByte_header hd, serialResult_inFrame (by simp) (by simp), hx]
    rfl
  | badType h1 h2 =>
    rw [List.foldl_cons, List.foldl_cons, Decoder.serialByte_header hd, Decoder.serialByte_badType rfl h1 h2,
      foldl_serialByte_stopped _ rfl, Decoder.serialResult, Decoder.serialStop_stopped rfl, hx]
    rfl
  | truncated hty hb => exact serialResult_foldl_of_truncated hty hb hd hx

/-- The byte-serial form from the start of a buffer gives DECODE's result (R136). -/
theorem serialResult_foldl_eq_decodeBuffer {d : Decoder} (hd : d.dPhase = .hdr) (hc : d.cursor = 0) (hf : d.frames = [])
    (hx : d.rxbuf = []) (buf : List Byte) : (buf.foldl Decoder.serialByte d).serialResult = decodeBuffer buf := by
  obtain ⟨ws, rest, r, rfl, hws, hr⟩ := exists_frames_and_rest buf
  obtain ⟨e, he, hphase, hrxbuf, hframes, hcursor⟩ := foldl_serialByte_wireBytes hws hd hx
  rw [decodeBuffer_wireBytes_append hws hr, List.foldl_append, he, serialResult_foldl_of_stopsAt hr hphase hrxbuf,
    hframes, hcursor, hf, hc, List.nil_append, Nat.zero_add]

/-! The decode loop in small steps (log 13). -/

theorem run_succ {s t : State} (h : step s = .next t) (n : Nat) : core.run (n + 1) s = core.run n t := by
  have h : core.step s = .next t := h
  simp only [Host.Core.run, h]

/-- A whole frame at CURSOR is accepted in one step. -/
theorem step_of_received {s : State} (hport : s.port = []) (hpoint : s.point = .decode) {w : WireFrame}
    (hw : w.Received) {more : List Byte} (h : s.dec.remaining = w.bytes ++ more) :
    step s = .next { s with dec := s.dec.accept w } := by
  have hframe : decodeFrame s.dec.remaining = .ok w := by rw [h]; exact decodeFrame_bytes_append hw.2 more
  simp only [step, fetch, hport, fetchInFlight, hpoint, fetchFrame, hframe, exec_toInstr_accepted hw.1]

/-- Bytes that stop DECODE1 end the loop in one step, with the decoder's registers written but not its frames, its buffer
or CURSOR. -/
theorem step_of_stopsAt {s : State} (hport : s.port = []) (hpoint : s.point = .decode) {r : StopReason}
    (hr : StopsAt s.dec.remaining r) :
    ∃ d, step s = .next ({ s with dec := d }.endDecode r) ∧ d.frames = s.dec.frames ∧
      d.remaining = s.dec.remaining := by
  rcases hr.decodeFrame with hf | ⟨rfl, w, hf, ht⟩
  · exact ⟨s.dec.latch, by simp only [step, fetch, hport, fetchInFlight, hpoint, fetchFrame, hf], by simp, by simp⟩
  · exact ⟨{ s.dec with dType := TYPE_COMMAND },
      by simp only [step, fetch, hport, fetchInFlight, hpoint, fetchFrame, hf, exec_toInstr_command ht], rfl, rfl⟩

/-- The decode loop, a frame a step, comes to its end. -/
theorem run_decode {ws : List WireFrame} (hws : ∀ w ∈ ws, w.Received) {rest : List Byte} {r : StopReason}
    (hr : StopsAt rest r) {s : State} (hport : s.port = []) (hpoint : s.point = .decode)
    (hrem : s.dec.remaining = wireBytes ws ++ rest) :
    ∃ d, core.run (ws.length + 1) s = .next ({ s with dec := d }.endDecode r) ∧
      d.frames = s.dec.frames ++ ws.map frameOf ∧ d.remaining = rest := by
  induction ws generalizing s with
  | nil =>
    obtain ⟨d, hstep, hframes, hd⟩ := step_of_stopsAt hport hpoint (r := r) (by simpa [hrem] using hr)
    exact ⟨d, run_succ hstep 0, by simp [hframes], by simpa [hrem] using hd⟩
  | cons w ws ih =>
    obtain ⟨hw, hws⟩ := List.forall_mem_cons.1 hws
    rw [wireBytes_cons, List.append_assoc] at hrem
    obtain ⟨d, hrun, hframes, hd⟩ := ih hws (s := { s with dec := s.dec.accept w }) hport hpoint
      (Decoder.accept_remaining_of_bytes hrem)
    exact ⟨d, (run_succ (step_of_received hport hpoint hw hrem) _).trans hrun, by simp [hframes], hd⟩

/-- Settles O16: the form and DECODE take the same frames and stop at the same rest, and so does the decode loop that
follows a RECEIVE's last read. -/
theorem serialReceiverEqualsDecode : Obligations.SerialReceiverEqualsDecode := by
  have hread : ∀ s : State, s.Inv → s.point = .read → s.ser.serialResult = decodeBuffer s.dec.rxbuf := by
    intro s h hp
    rw [h.serial, State.heard, hp]
    exact serialResult_foldl_eq_decodeBuffer rfl rfl rfl rfl _
  refine ⟨fun d buf hd hc hf hx => ?_, hread, fun s rs h hport hop hpoint hreads => ?_⟩
  · rw [Decoder.serialEvent_finish_result]
    exact ⟨serialResult_foldl_eq_decodeBuffer hd hc hf hx buf, serialResult_foldl_eq_decodeBuffer hd hc hf hx buf⟩
  · obtain ⟨ws, rest, r, hbuf, hws, hr⟩ := exists_frames_and_rest s.dec.rxbuf
    obtain ⟨d, hrun, hframes, hd⟩ := run_decode hws hr (s := s.readOne (.chunk []) rs) (by rw [readOne_zero, hport])
      (by rw [readOne_zero]) (by rw [readOne_zero]; exact hbuf)
    have hreceive : (s.readOne (.chunk []) rs).op ≠ some .readTags := by simp [readOne_zero, hop]
    refine ⟨ws.length + 1 + 1, _, (run_succ (step_read hport hpoint hreads) _).trans hrun, ?_⟩
    rw [State.endDecode_receive r (by exact hreceive)]
    refine ⟨?_, rfl, rfl, rfl, rfl, rfl⟩
    rw [hread s h hpoint, hbuf, decodeBuffer_wireBytes_append hws hr, State.conclude_outcome, hframes, hd, readOne_zero]
    rfl

end Sys2Proof.Machine

/-! PROOFS. The payload decoders (spec/42_payload.md R150, R151, R155, R157). -/

namespace Sys2Proof.Machine

open Config

/-! INVPARSE. -/

/-- The identifier's slice, byte by byte: offsets 3 to 14 (R150). -/
theorem take_idLen_drop_three {p : List Byte} (h : 15 ≤ p.length) :
    (p.drop 3).take ID_LEN =
      [p[3], p[4], p[5], p[6], p[7], p[8], p[9], p[10], p[11], p[12], p[13], p[14]] := by
  match p, h with
  | _ :: _ :: _ :: _ :: _ :: _ :: _ :: _ :: _ :: _ :: _ :: _ :: _ :: _ :: _ :: _, _ => rfl

theorem inventoryReport_of_length_lt {p : List Byte} (h : p.length < 17) : inventoryReport p = .error p.length :=
  dif_pos h

theorem inventoryReport_of_le_length {p : List Byte} (h : 17 ≤ p.length) :
    inventoryReport p = .ok
      { signalStrength := p[0]
        protocolControl := u16be p[1] p[2]
        identifier := [p[3], p[4], p[5], p[6], p[7], p[8], p[9], p[10], p[11], p[12], p[13], p[14]]
        crc := u16be p[15] p[16] } := by
  rw [← take_idLen_drop_three (by omega)]
  exact dif_neg (Nat.not_lt.2 h)

theorem exec_opInvParse_of_ok {p : List Byte} {rep : InventoryReport} (h : inventoryReport p = .ok rep) (s : State) :
    exec (.opInvParse p) s = .next (s.answer (.inventory rep)) := by
  simp only [exec, execInvParse, h]

theorem exec_opInvParse_of_error {p : List Byte} {n : Nat} (h : inventoryReport p = .error n) (s : State) :
    exec (.opInvParse p) s = .next (s.answer (.error (.payloadTooShort n))) := by
  simp only [exec, execInvParse, h]

/-- Settles O20, by the length check. -/
theorem invParseReadsTheFields : Obligations.InvParseReadsTheFields := fun s _ =>
  ⟨fun h => exec_opInvParse_of_ok (inventoryReport_of_le_length h) s,
    fun h => exec_opInvParse_of_error (inventoryReport_of_length_lt h) s⟩

/-! ERRPARSE. -/

theorem exec_opErrParse (p : List Byte) (s : State) :
    exec (.opErrParse p) s = .next (s.answer (.failure (errorReport p))) := rfl

/-- Settles O21, by the two cases of the error report: no first byte, and a first byte. -/
theorem errParseNeverFails : Obligations.ErrParseNeverFails := fun s b bs =>
  ⟨exec_opErrParse [] s, exec_opErrParse (b :: bs) s⟩

end Sys2Proof.Machine

/-! PROOFS. What the pure operations and the opcode rows change (spec/43_session.md R175, R177, R179, R180, R186). -/

namespace Sys2Proof.Machine

open Config

/-- Settles O22: a pure operation hands over an outcome and changes nothing else. -/
theorem pureOperationsDependOnNoState : Obligations.PureOperationsDependOnNoState := fun _ h =>
  let ⟨r, _, hexec⟩ := exec_pure h
  ⟨r, hexec⟩

theorem Tags.inventory_of_short {p : List Byte} (h : p.length < 17) (t : Tags) :
    t.inventory p = { t with shortCount := t.shortCount + 1 } := by
  simp only [Tags.inventory, inventoryReport_of_length_lt h]

section
variable {p : List Byte} {rep : InventoryReport} {t : Tags}

theorem Tags.inventory_of_new (hrep : inventoryReport p = .ok rep)
    (hnew : ∀ e ∈ t.pool, e.identifier ≠ rep.identifier) :
    t.inventory p = { t with pool := t.pool ++ [rep] } := by
  have hany : ¬ t.pool.any (fun e => e.identifier == rep.identifier) = true := by simpa using hnew
  simp only [Tags.inventory, hrep, if_neg hany]

theorem Tags.inventory_of_known (hrep : inventoryReport p = .ok rep)
    (hknown : ∃ e ∈ t.pool, e.identifier = rep.identifier) : t.inventory p = t := by
  have hany : t.pool.any (fun e => e.identifier == rep.identifier) = true := by simpa using hknown
  simp only [Tags.inventory, hrep, if_pos hany]

end

theorem exec_singlePoll (p : List Byte) (s : State) :
    exec (.singlePoll p) s = .next { s with tags := s.tags.inventory p } := rfl

/-- Settles O23, by the three cases of a payload: short, of a new tag, of a known one. -/
theorem singlePollCollectsNewTags : Obligations.SinglePollCollectsNewTags := by
  refine fun s p => ⟨fun hshort => ?_, fun rep hrep => ⟨fun hnew => ?_, fun hknown => ?_⟩⟩
  · rw [exec_singlePoll, Tags.inventory_of_short hshort]
  · rw [exec_singlePoll, Tags.inventory_of_new hrep hnew]
  · rw [exec_singlePoll, Tags.inventory_of_known hrep hknown]

theorem exec_execFailure (p : List Byte) (s : State) :
    exec (.execFailure p) s = .next { s with tags := { s.tags with lastError := some (errorReport p) } } := rfl

/-- Settles O24, by the two cases of the error report. -/
theorem execFailureOverwritesLastError : Obligations.ExecFailureOverwritesLastError := fun s b bs =>
  ⟨exec_execFailure (b :: bs) s, exec_execFailure [] s⟩

/-- Settles O25: the four rows are `passThrough`, which leaves the state. -/
theorem otherCommandsPassThrough : Obligations.OtherCommandsPassThrough := fun _ _ => ⟨rfl, rfl, rfl, rfl⟩

end Sys2Proof.Machine

/-! PROOFS. The preconditions of the operations (spec/43_session.md R165, R186; spec/60_exceptions.md R205), and what a
session operation is when they are met. -/

namespace Sys2Proof.Machine

open Config

/-- CLOSE, SEND, RECEIVE or READTAGS (spec/43_session.md R186). -/
def SessionInstr (i : Instr) : Prop :=
  i = .opClose ∨ (∃ c p, i = .opSend c p) ∨ i = .opReceive ∨ ∃ r, i = .opReadTags r

section
variable {s : State}

theorem sessionRefusal_of_closed (h : s.session.sOpen = false) : s.sessionRefusal = some .notOpen := if_pos h

theorem sessionRefusal_of_busy (hopen : s.session.sOpen = true) (hbusy : s.session.sBusy = true) :
    s.sessionRefusal = some .busy := by
  simp only [State.sessionRefusal, hopen, hbusy, Bool.true_eq_false, if_false, if_true]

/-- The four session operations have one precondition (R186). -/
theorem exec_refused {i : Instr} (hi : SessionInstr i) {r : Refusal} (hr : s.sessionRefusal = some r) :
    exec i s = .refused r := by
  rcases hi with rfl | ⟨c, p, rfl⟩ | rfl | ⟨n, rfl⟩
  · simp only [exec, execClose, hr]
  · simp only [exec, execSend, hr]
  · simp only [exec, execReceive, hr]
  · simp only [exec, execReadTags, hr]

theorem exec_opClose (hr : s.sessionRefusal = none) : exec .opClose s = .next s.closeChannel := by
  simp only [exec, execClose, hr]

theorem exec_opReceive (hr : s.sessionRefusal = none) : exec .opReceive s = .next s.startReceive.runReceive := by
  simp only [exec, execReceive, hr]

theorem exec_opSend_eq_sendFrame (hr : s.sessionRefusal = none) (cmd : Byte) (params : List Byte) :
    exec (.opSend cmd params) s = (s.start .send .write).sendFrame cmd params := by
  simp only [exec, execSend, hr]

/-- READTAGS comes to its `write`: a multi-poll is never too long to encode (R174, R181). -/
theorem exec_opReadTags (hr : s.sessionRefusal = none) (rounds : Nat) :
    exec (.opReadTags rounds) s = andThen (s.startReadTags rounds).write State.runReceive := by
  simp only [exec, execReadTags, hr, State.sendFrame,
    Encoder.encode_ok (params := multiPollParams rounds) _ (show 3 ≤ MAX_PARAM_LEN by decide)]
  rfl

theorem State.sendFrame_not_refused (cmd : Byte) (params : List Byte) (s : State) (r : Refusal) :
    s.sendFrame cmd params ≠ .refused r := by
  rcases s.sendFrame_cases cmd params with ⟨_, h⟩ | ⟨_, h⟩
  · simp [h]
  · rw [h]; exact State.write_not_refused _ r

theorem andThen_eq_refused {o : Host.Outcome State Fault Refusal} {f : State → State} {r : Refusal}
    (h : andThen o f = .refused r) : o = .refused r := by
  cases o with
  | next u => cases h
  | fault x => cases h
  | refused x => cases h; rfl

/-- A session operation whose precondition is met is not refused (R186). -/
theorem exec_not_refused {i : Instr} (hi : SessionInstr i) (hr : s.sessionRefusal = none) (r : Refusal) :
    exec i s ≠ .refused r := by
  rcases hi with rfl | ⟨c, p, rfl⟩ | rfl | ⟨n, rfl⟩
  · rw [exec_opClose hr]; nofun
  · rw [exec_opSend_eq_sendFrame hr]; exact State.sendFrame_not_refused _ _ _ r
  · rw [exec_opReceive hr]; nofun
  · rw [exec_opReadTags hr]; exact fun h => State.write_not_refused _ r (andThen_eq_refused h)

theorem exec_opOpen_of_closed (h : s.session.sOpen = false) (channel timeout : Nat) :
    exec (.opOpen channel timeout) s =
      .next (State.answer .opened { s with session := ⟨some channel, timeout, true, false⟩ }) := by
  simp only [exec, execOpen, h, Bool.false_eq_true, if_false]

theorem exec_opOpen_of_open (h : s.session.sOpen = true) (channel timeout : Nat) :
    exec (.opOpen channel timeout) s = .refused .alreadyOpen := by
  simp only [exec, execOpen, h, if_true]

end

/-- Settles O26, by S_OPEN. -/
theorem openTakesTheChannel : Obligations.OpenTakesTheChannel := fun _ channel timeout =>
  ⟨fun h => exec_opOpen_of_closed h channel timeout, fun h => exec_opOpen_of_open h channel timeout⟩

/-- Settles O35: the session operations share one precondition, OPEN has its opposite, the pure ones none. -/
theorem sessionPreconditions : Obligations.SessionPreconditions := by
  refine ⟨fun s i hi => ⟨fun hclosed => ?_, fun hopen hbusy => ?_, fun hopen hbusy => ?_⟩,
    fun s channel timeout => ⟨fun hopen => ?_, fun hclosed r => ?_⟩, fun s i hi => ?_⟩
  · exact exec_refused hi (sessionRefusal_of_closed hclosed)
  · exact exec_refused hi (sessionRefusal_of_busy hopen hbusy)
  · exact exec_not_refused hi (sessionRefusal_eq_none.2 ⟨hopen, hbusy⟩)
  · exact exec_opOpen_of_open hopen channel timeout
  · rw [exec_opOpen_of_closed hclosed]; nofun
  · obtain ⟨r, -, hexec⟩ := exec_pure hi
    exact ⟨r, hexec s⟩

end Sys2Proof.Machine

/-! PROOFS. What an operation that started in a ready session leaves (spec/10_state.md R34, R40; spec/43_session.md R185),
and CLOSE. -/

namespace Sys2Proof.Machine

/-- The decoder between operations: every register that has a value after reset is back at it (spec/10_state.md R40). -/
def Decoder.between (d : Decoder) : Decoder := { d with rxbuf := [], cursor := 0, frames := [], stop := .endOfBuffer }

namespace State.Ready

variable {s : State} (h : s.Ready)
include h

theorem inv : s.Inv := h.1

theorem sessionRefusal : s.sessionRefusal = none := sessionRefusal_eq_none.2 h.2

theorem point : s.point = .idle := (h.inv.idle_of_sessionRefusal h.sessionRefusal).1

theorem clean : s.Clean := h.inv.clean h.point

theorem enc_eq : { s.enc with txbuf := [] } = s.enc := by
  obtain ⟨htxbuf, -⟩ := h.clean
  rw [← htxbuf]

theorem dec_between : s.dec.between = s.dec := by
  obtain ⟨-, hrxbuf, hcursor, hframes, hstop, -⟩ := h.clean
  unfold Decoder.between
  rw [← hrxbuf, ← hframes, ← hcursor, ← hstop]

/-- A session is ready whatever the channel has taken and answers, and whatever the encoder's working registers hold. -/
theorem with_enc_chan {e : Encoder} (he : e.txbuf = []) (c : Channel) : State.Ready { s with enc := e, chan := c } := by
  obtain ⟨-, hclean⟩ := h.clean
  exact ⟨{ h.inv with
    clean := fun _ => ⟨he, hclean⟩
    outgoing := fun hw => by simp [h.point] at hw }, h.2⟩

/-- An operation that ends leaves the ready state it started in, but for the channel's record, the working registers and
what of the session record it wrote (R34). -/
theorem conclude_eq (u : State) (hport : u.port = s.port) (hcap : u.rxbufCap = s.rxbufCap) (r : OpOutcome) :
    u.conclude r =
      { s with session := { u.session with sBusy := false }, enc := { u.enc with txbuf := [] }, dec := u.dec.between
               chan := u.chan, outcome := some r } := by
  obtain ⟨-, -, -, -, -, htags, hbatch, hrest⟩ := h.clean
  have hop : s.op = none := by simpa [OpAt, h.point] using h.inv.op
  have hser : s.ser = Decoder.reset := by simpa [State.heard, h.point] using h.inv.serial
  simp only [State.conclude, Decoder.between, htags, hbatch, hrest, hop, hser, h.point, hport, hcap]

/-- An operation that keeps the rest of the session record leaves the record as it was. -/
theorem conclude_of_held (u : State) (hheld : u.held = s.held) (hport : u.port = s.port) (r : OpOutcome) :
    u.conclude r =
      { s with enc := { u.enc with txbuf := [] }, dec := u.dec.between, chan := u.chan, outcome := some r } := by
  obtain ⟨hcap, hchannel, htimeout, hopen⟩ := State.held_eq_iff.1 hheld
  have hsession : { u.session with sBusy := false } = s.session := by
    dsimp only
    rw [hchannel, htimeout, hopen, ← h.2.2]
  rw [h.conclude_eq u hport hcap, hsession]

/-- CLOSE leaves what `conclude` leaves, with no channel and S_OPEN = 0 (R185). -/
theorem exec_opClose : exec .opClose s =
    .next { s with
      session := { s.session with channel := none, sOpen := false, sBusy := false }
      chan := s.chan.closed
      outcome := some (if s.chan.closeAnswer = .ok then .ok else .error (.ioError .close)) } := by
  have hconclude := h.conclude_eq
    { s with session := { s.session with channel := none, sOpen := false }, chan := s.chan.closed } rfl rfl
  simp only [h.enc_eq, h.dec_between] at hconclude
  rw [Machine.exec_opClose h.sessionRefusal, State.closeChannel]
  cases s.chan.closeAnswer
  · exact congrArg Host.Outcome.next (hconclude .ok)
  · exact congrArg Host.Outcome.next (hconclude (.error (.ioError .close)))

end State.Ready

/-- Settles O27, by the two sources of the answer to `close`: presented, or free. -/
theorem closeEndsTheSession : Obligations.CloseEndsTheSession := by
  refine fun s h => ⟨fun a cs hcloses => ?_, fun hcloses => ?_⟩
  · rw [h.exec_opClose]
    simp only [Channel.closed, Channel.closeAnswer, hcloses]
  · rw [h.exec_opClose]
    simp only [Channel.closed, Channel.closeAnswer, hcloses]
    cases Config.closeFails s.chan.draws <;> rfl

end Sys2Proof.Machine

/-! PROOFS. SEND (spec/43_session.md R167, R168): the one `write` of an operation in a ready session, by its answer. -/

namespace Sys2Proof.Machine

open Config

section
variable {s : State} {n : Nat} {ws : List WriteAnswer}

theorem State.write_of_short (hw : s.chan.writes = .count n :: ws) (hn : n < s.enc.txbuf.length) :
    s.write = .next ({ s with chan := s.chan.accept n s.enc.txbuf ws }.conclude (.error (.ioError (.shortWrite n)))) := by
  simp only [State.write, hw, if_pos hn, State.raise_eq]

theorem State.write_of_whole (hw : s.chan.writes = .count s.enc.txbuf.length :: ws) :
    s.write = .next { s with chan := s.chan.accept s.enc.txbuf.length s.enc.txbuf ws }.written := by
  simp only [State.write, hw, lt_irrefl, if_false, if_true]

theorem State.write_of_error (hw : s.chan.writes = .error n :: ws) (hn : n ≤ s.enc.txbuf.length) :
    s.write = .next ({ s with chan := s.chan.accept n s.enc.txbuf ws }.conclude (.error (.ioError .write))) := by
  simp only [State.write, hw, if_pos hn, State.raise_eq]

end

/-- A SEND or a READTAGS at its `write`, with these registers in the encoder. -/
def State.startWrite (o : SessionOp) (e : Encoder) (s : State) : State := { s.start o .write with enc := e }

theorem State.sendFrame_start {params : List Byte} (hp : params.length ≤ MAX_PARAM_LEN) (o : SessionOp) (cmd : Byte)
    (s : State) :
    (s.start o .write).sendFrame cmd params = (s.startWrite o (s.enc.emitFrame cmd params)).write := by
  simp only [State.sendFrame, State.start_enc, Encoder.encode_ok _ hp]
  rfl

namespace State.Ready

variable {s : State} (h : s.Ready) {n : Nat} {ws : List WriteAnswer} (e : Encoder)
include h

theorem conclude_startWrite (o : SessionOp) (c : Channel) (r : OpOutcome) :
    State.conclude r { s.startWrite o e with chan := c } =
      { s with enc := { e with txbuf := [] }, chan := c, outcome := some r } := by
  have hconclude := h.conclude_of_held { s.startWrite o e with chan := c } rfl rfl r
  simpa only [State.startWrite, State.start_dec, h.dec_between] using hconclude

/-- A short write ends the operation with the accepted bytes on the wire (R168). -/
theorem write_of_short (o : SessionOp) (hw : s.chan.writes = .count n :: ws) (hn : n < e.txbuf.length) :
    (s.startWrite o e).write =
      .next { s with enc := { e with txbuf := [] }
                     chan := { s.chan with writes := ws, wire := s.chan.wire ++ e.txbuf.take n }
                     outcome := some (.error (.ioError (.shortWrite n))) } := by
  rw [State.write_of_short (s := s.startWrite o e) hw hn]
  exact congrArg Host.Outcome.next (h.conclude_startWrite e o _ _)

/-- A write error ends the operation with what the channel took on the wire (R168). -/
theorem write_of_error (o : SessionOp) (hw : s.chan.writes = .error n :: ws) (hn : n ≤ e.txbuf.length) :
    (s.startWrite o e).write =
      .next { s with enc := { e with txbuf := [] }
                     chan := { s.chan with writes := ws, wire := s.chan.wire ++ e.txbuf.take n }
                     outcome := some (.error (.ioError .write)) } := by
  rw [State.write_of_error (s := s.startWrite o e) hw hn]
  exact congrArg Host.Outcome.next (h.conclude_startWrite e o _ _)

/-- A whole write ends a SEND (R167). -/
theorem write_of_whole_send (hw : s.chan.writes = .count e.txbuf.length :: ws) :
    (s.startWrite .send e).write =
      .next { s with enc := { e with txbuf := [] }
                     chan := { s.chan with writes := ws, wire := s.chan.wire ++ e.txbuf }
                     outcome := some .ok } := by
  have htake : s.chan.accept e.txbuf.length e.txbuf ws = { s.chan with writes := ws, wire := s.chan.wire ++ e.txbuf } := by
    rw [Channel.accept, List.take_length]
  rw [State.write_of_whole (s := s.startWrite .send e) hw, State.written_send (by simp [State.startWrite]), ← htake]
  exact congrArg Host.Outcome.next (h.conclude_startWrite e .send _ _)

/-- SEND comes to its `write` with the whole frame in TXBUF (R167). -/
theorem exec_opSend {params : List Byte} (hp : params.length ≤ MAX_PARAM_LEN) (cmd : Byte) :
    exec (.opSend cmd params) s =
      (s.startWrite .send
        { eCmd := cmd, eLen := BitVec.ofNat 16 params.length, eAcc := frameChecksum TYPE_COMMAND cmd params
          txbuf := frameBytes TYPE_COMMAND cmd params }).write := by
  rw [exec_opSend_eq_sendFrame h.sessionRefusal, State.sendFrame_start hp, Encoder.emitFrame_eq]

/-- A frame too long ends SEND before its `write` (R104, R167). -/
theorem exec_opSend_tooLong {params : List Byte} (hp : MAX_PARAM_LEN < params.length) (cmd : Byte) :
    exec (.opSend cmd params) s = .next { s with outcome := some (.error (.encodingError params.length)) } := by
  have hconclude := h.conclude_of_held (s.start .send .write) rfl rfl (.error (.encodingError params.length))
  rw [State.start_enc, State.start_dec, State.start_chan, h.enc_eq, h.dec_between] at hconclude
  rw [exec_opSend_eq_sendFrame h.sessionRefusal, State.sendFrame, Encoder.encode_error _ hp]
  exact congrArg Host.Outcome.next hconclude

end State.Ready

/-- Settles O28: the `write` takes the whole of TXBUF. -/
theorem sendWritesTheWholeFrame : Obligations.SendWritesTheWholeFrame := by
  intro s cmd params ws h hp hw
  rw [h.exec_opSend hp, h.write_of_whole_send _ (by rw [frameBytes_length, hw])]

/-- Settles O29, by the length check and the answer to the `write`. -/
theorem sendFailsWithoutRetry : Obligations.SendFailsWithoutRetry := by
  refine fun s cmd params h => ⟨fun hp => h.exec_opSend_tooLong hp cmd, fun hp n ws => ⟨fun hw hn => ?_, fun hw hn => ?_⟩⟩
  · rw [h.exec_opSend hp, h.write_of_short _ _ hw (by rwa [frameBytes_length])]
  · rw [h.exec_opSend hp, h.write_of_error _ _ hw (by rwa [frameBytes_length])]

end Sys2Proof.Machine

/-! PROOFS. RECEIVE (spec/43_session.md R170 to R173): the drain of an operation in a ready session, and its DECODE. -/

namespace Sys2Proof.Machine

/-! The decode loop of a buffer. -/

/-- The decode loop from the start of a buffer has DECODE's result (spec/41_decode.md R128). -/
theorem Decoder.run_result {d : Decoder} (hc : d.cursor = 0) (hf : d.frames = []) :
    d.run.1.result d.run.2 = decodeBuffer d.rxbuf := by
  have hrem : d.remaining = d.rxbuf := by simp [Decoder.remaining, hc]
  obtain ⟨hstop, hframes, hcursor, hrxbuf, -⟩ := d.loop_eq d.remaining.length
  rw [hrem, hf, List.nil_append] at hframes
  rw [hrem, hc, Nat.zero_add] at hcursor
  rw [hrem] at hstop
  simp only [decodeBuffer_eq, Decoder.run, Decoder.result, Decoder.remaining, hc, List.drop_zero] at *
  rw [hstop, hframes, hcursor, hrxbuf]

/-- Between operations the decode loop shows in five working registers only (spec/10_state.md R39). -/
theorem Decoder.run_between (d : Decoder) : ∃ (ty c acc cs : Byte) (len : U16),
    d.run.1.between = { d.between with dType := ty, dCmd := c, dLen := len, dAcc := acc, dCs := cs } := by
  obtain ⟨-, -, -, -, -, hcnt, hphase, hpbuf⟩ := d.loop_eq d.remaining.length
  refine ⟨d.run.1.dType, d.run.1.dCmd, d.run.1.dAcc, d.run.1.dCs, d.run.1.dLen, ?_⟩
  simp only [Decoder.between, Decoder.run, hcnt, hphase, hpbuf]

/-! The drain. -/

/-- The chunks of a drain are one buffer to what follows them, however they were cut (R170). -/
theorem drain_of_drains {s : State} {chunks : List (List Byte)} (hd : s.drains chunks) (as : List ReadAnswer) :
    drain s.rxbufCap [] (chunks.map .chunk ++ as) = drain s.rxbufCap chunks.flatten as := by
  obtain ⟨hne, hcap⟩ := hd
  exact drain_chunks _ _ [] _ hne (by simpa using hcap)

/-- A RECEIVE, or the RECEIVE of a READTAGS, at its first `read` (R170, R174). -/
def State.startRead (o : SessionOp) (s : State) : State := (s.start o .read).beginReceive

/-- With the drain's answers there, what follows is what they leave (R170). -/
theorem State.runReceive_startRead {s : State} {d : Drain} {rs : List ReadAnswer}
    (hd : drain s.rxbufCap [] s.chan.reads = (d, rs)) (o : SessionOp) :
    (s.startRead o).runReceive =
      (State.drained d { s.startRead o with chan := { s.chan with reads := rs } }).runDecode := by
  have hdrain : drain (s.startRead o).rxbufCap (s.startRead o).dec.rxbuf (s.startRead o).chan.reads = (d, rs) := hd
  show (s.startRead o).drainAll.runDecode = _
  rw [State.drainAll, hdrain]
  rfl

/-- An operation that stands at the decode loop with these bytes in RXBUF and these answers to come (R128). -/
def State.drainedRead (o : SessionOp) (buf : List Byte) (rs : List ReadAnswer) (s : State) : State :=
  State.drained (.done buf) { s.startRead o with chan := { s.chan with reads := rs } }

/-- A zero-count read ends the drain with the chunks in RXBUF for DECODE (R128, R170). -/
theorem State.runReceive_of_zero {s : State} {chunks : List (List Byte)} {rs : List ReadAnswer} (hd : s.drains chunks)
    (hr : s.chan.reads = chunks.map .chunk ++ .chunk [] :: rs) (o : SessionOp) :
    (s.startRead o).runReceive = (s.drainedRead o chunks.flatten rs).runDecode :=
  State.runReceive_startRead (by rw [hr, drain_of_drains hd, drain]) o

namespace State.Ready

variable {s : State} (h : s.Ready) {chunks : List (List Byte)} {rs : List ReadAnswer}
include h

/-- A read error ends the operation with the bytes so far dropped (R171). -/
theorem runReceive_of_error (hd : s.drains chunks) (hr : s.chan.reads = chunks.map .chunk ++ .error :: rs)
    (o : SessionOp) :
    (s.startRead o).runReceive =
      { s with chan := { s.chan with reads := rs }, outcome := some (.error (.ioError .read)) } := by
  have hdrain : drain s.rxbufCap [] s.chan.reads = (.failed, rs) := by rw [hr, drain_of_drains hd, drain]
  have hconclude := h.conclude_of_held { s.startRead o with chan := { s.chan with reads := rs } } rfl rfl
    (.error (.ioError .read))
  rw [State.runReceive_startRead hdrain, State.runDecode_of_ne (by simp), State.drained_failed, hconclude]
  show ({ s with enc := { s.enc with txbuf := [] }, dec := s.dec.between, chan := _, outcome := _ } : State) = _
  rw [h.enc_eq, h.dec_between]

/-- An operation whose decode loop has run from `d` leaves nothing of it but five working registers, whatever the
outcome (R40; spec/10_state.md R39). -/
theorem conclude_of_run {d : Decoder} (hd : d.between = s.dec) :
    ∃ (ty c acc cs : Byte) (len : U16), ∀ (u : State) (r : OpOutcome), u.held = s.held → u.port = s.port →
      u.enc = s.enc → u.dec.between = d.run.1.between →
      u.conclude r =
        { s with dec := { s.dec with dType := ty, dCmd := c, dLen := len, dAcc := acc, dCs := cs }
                 chan := u.chan, outcome := some r } := by
  obtain ⟨ty, c, acc, cs, len, hrun⟩ := d.run_between
  refine ⟨ty, c, acc, cs, len, fun u r hheld hport henc hdec => ?_⟩
  rw [h.conclude_of_held u hheld hport, henc, h.enc_eq, hdec, hrun, hd]

end State.Ready

/-! The operation's end after the drain. -/

/-- A RECEIVE at its decode loop ends with DECODE's result without its cursor (R170, R173). -/
theorem State.runDecode_receive {s : State} (hp : s.point = .decode) (hop : s.op ≠ some .readTags) :
    s.runDecode =
      State.conclude (s.dec.run.1.result s.dec.run.2).received { s with dec := s.dec.run.1.consume s.dec.run.2 } := by
  simp only [State.runDecode, hp]
  rw [State.endDecode_receive (s := { s with dec := s.dec.run.1, point := .decode }) _ hop,
    State.runDispatch_of_ne (by simp)]
  rfl

/-- Settles O31: an error ends the drain. -/
theorem receiveDropsBytesOnAReadError : Obligations.ReceiveDropsBytesOnAReadError := by
  intro s chunks rs h hd hr
  rw [exec_opReceive h.sessionRefusal, ← h.runReceive_of_error hd hr .receive]
  rfl

/-- Settles O30: the drain is DECODE's operand, and what DECODE leaves shows in the working registers only. -/
theorem receiveDecodesTheDrainedBytes : Obligations.ReceiveDecodesTheDrainedBytes := by
  intro s chunks rs h hd hr
  obtain ⟨ty, c, acc, cs, len, hconclude⟩ :=
    h.conclude_of_run (d := (s.drainedRead .receive chunks.flatten rs).dec) h.dec_between
  refine ⟨ty, c, acc, cs, len, ?_⟩
  have hexec : exec .opReceive s = .next (s.startRead .receive).runReceive := exec_opReceive h.sessionRefusal
  have hop : (s.drainedRead .receive chunks.flatten rs).op ≠ some .readTags :=
    show some SessionOp.receive ≠ some .readTags by decide
  rw [hexec, State.runReceive_of_zero hd hr, State.runDecode_receive rfl hop, Decoder.run_result rfl rfl]
  refine congrArg Host.Outcome.next (hconclude _ _ ?_ ?_ ?_ ?_) <;> rfl

/-! When it is over (R172). -/

/-- With unbounded capacity a drain waits exactly when no answer ends it. -/
theorem drain_waiting_iff (rs : List ReadAnswer) (buf : List Byte) :
    (∃ b, (drain none buf rs).1 = .waiting b) ↔ .error ∉ rs ∧ .chunk [] ∉ rs := by
  induction rs generalizing buf with
  | nil => simp [drain]
  | cons a rs ih =>
    match a with
    | .error => simp [drain]
    | .chunk [] => simp [drain]
    | .chunk (b :: bs) => simp [drain, exceeds, ih]

theorem State.endDecode_runDispatch_idle (r : StopReason) (s : State) :
    (s.endDecode r).runDispatch.session.sBusy = false := by
  by_cases hop : s.op = some .readTags
  · rw [State.endDecode_readTags r hop]; rfl
  · rw [State.endDecode_receive r hop]; rfl

/-- What a drain leaves is over unless the drain waits. -/
theorem State.drained_runDecode_busy_iff {s : State} (hp : s.point = .read) (hbusy : s.session.sBusy = true) (d : Drain) :
    (s.drained d).runDecode.session.sBusy = true ↔ ∃ b, d = .waiting b := by
  cases d with
  | waiting b => rw [State.drained_waiting, State.runDecode_of_ne (by simp [hp])]; simpa using hbusy
  | done b =>
    rw [State.drained_done, State.runDecode]
    simp [State.endDecode_runDispatch_idle]
  | failed => rw [State.drained_failed, State.runDecode_of_ne (by simp)]; simp
  | overflow => rw [State.drained_overflow, State.runDecode_of_ne (by simp)]; simp

/-- Settles O33: RECEIVE is over unless its drain waits, which it does when no answer ends it. -/
theorem receiveEndsWhenTheChannelEndsIt : Obligations.ReceiveEndsWhenTheChannelEndsIt := by
  intro s t h hcap ht
  have hexec : exec .opReceive s = .next (s.startRead .receive).runReceive := exec_opReceive h.sessionRefusal
  rw [hexec, State.runReceive_startRead (d := (drain s.rxbufCap [] s.chan.reads).1) rfl] at ht
  cases ht
  rw [← Bool.not_eq_true, State.drained_runDecode_busy_iff rfl rfl, hcap, drain_waiting_iff]
  tauto

end Sys2Proof.Machine

/-! PROOFS. What READTAGS makes of the frames (spec/43_session.md R175 to R180): the dispatch of one frame after others gives
the pool, the last error and the short count of them all. -/

namespace Sys2Proof.Machine

open Config

/-! First seen wins (R179). -/

theorem exists_mem_firstSeen_iff (rs : List InventoryReport) (i : List Byte) :
    (∃ e ∈ firstSeen rs, e.identifier = i) ↔ ∃ e ∈ rs, e.identifier = i := by
  induction rs with
  | nil => rfl
  | cons a rs ih =>
    rw [firstSeen, List.exists_mem_cons_iff, List.exists_mem_cons_iff, ← ih]
    refine or_congr_right' fun ha => ⟨fun ⟨e, he, hi⟩ => ⟨e, (List.mem_filter.1 he).1, hi⟩, fun ⟨e, he, hi⟩ => ?_⟩
    exact ⟨e, List.mem_filter.2 ⟨he, by simpa [hi] using Ne.symm ha⟩, hi⟩

/-- One more report changes what was first seen only when its identifier is new. -/
theorem firstSeen_concat (rs : List InventoryReport) (r : InventoryReport) :
    firstSeen (rs ++ [r]) =
      if ∃ e ∈ rs, e.identifier = r.identifier then firstSeen rs else firstSeen rs ++ [r] := by
  induction rs with
  | nil => simp [firstSeen]
  | cons a rs ih =>
    rw [List.cons_append, firstSeen, ih]
    by_cases hrs : ∃ e ∈ rs, e.identifier = r.identifier
    · rw [if_pos hrs, if_pos (by obtain ⟨e, he, h⟩ := hrs; exact ⟨e, List.mem_cons_of_mem a he, h⟩), firstSeen]
    · rw [if_neg hrs, List.filter_append]
      by_cases ha : a.identifier = r.identifier
      · rw [if_pos ⟨a, List.mem_cons_self, ha⟩, firstSeen]
        simp [ha]
      · rw [if_neg (by simpa [ha] using hrs), firstSeen]
        simp [Ne.symm ha]

/-! One more frame. -/

section
variable (fs : List Frame) {f : Frame}

theorem inventoryReports_concat_of_report (hc : f.command = OP_SINGLE_POLL) {rep : InventoryReport}
    (hrep : inventoryReport f.parameters = .ok rep) :
    inventoryReports (fs ++ [f]) = inventoryReports fs ++ [rep] := by
  simp [inventoryReports, hc, hrep, Except.toOption]

theorem inventoryReports_concat_of_short (h : f.parameters.length < 17) :
    inventoryReports (fs ++ [f]) = inventoryReports fs := by
  simp [inventoryReports, inventoryReport_of_length_lt h, Except.toOption]

theorem inventoryReports_concat_of_ne (h : f.command ≠ OP_SINGLE_POLL) :
    inventoryReports (fs ++ [f]) = inventoryReports fs := by
  simp only [inventoryReports, List.filterMap_append, List.filterMap_cons, if_neg h, List.filterMap_nil, List.append_nil]

theorem shortReports_concat_of_short (hc : f.command = OP_SINGLE_POLL) (h : f.parameters.length < 17) :
    shortReports (fs ++ [f]) = shortReports fs + 1 := by
  simp [shortReports, hc, h]

theorem shortReports_concat_of_not_short (h : f.command = OP_SINGLE_POLL → 17 ≤ f.parameters.length) :
    shortReports (fs ++ [f]) = shortReports fs := by
  simpa [shortReports] using h

theorem lastFailure_concat_of_failure (h : f.command = OP_EXEC_FAILURE) :
    lastFailure (fs ++ [f]) = some (errorReport f.parameters) := by
  simp [lastFailure, h]

theorem lastFailure_concat_of_ne (h : f.command ≠ OP_EXEC_FAILURE) : lastFailure (fs ++ [f]) = lastFailure fs := by
  have hnone : [f].filter (fun g => g.command == OP_EXEC_FAILURE) = [] := by simpa [List.filter_eq_nil_iff] using h
  rw [lastFailure, List.filter_append, hnone, List.append_nil, lastFailure]

end

/-- What READTAGS hands over of these frames. -/
def collected (fs : List Frame) : Tags :=
  { pool := firstSeen (inventoryReports fs), lastError := lastFailure fs, shortCount := shortReports fs }

theorem dispatch_collected (fs : List Frame) (f : Frame) : (collected fs).dispatch f = collected (fs ++ [f]) := by
  rcases (collected fs).dispatch_cases f with ⟨hc, hd⟩ | ⟨hc, hd⟩ | ⟨hpoll, hfail, hd⟩
  · have hfail : f.command ≠ OP_EXEC_FAILURE := by rw [hc]; decide
    rw [hd, collected, collected, lastFailure_concat_of_ne fs hfail]
    rcases inventoryReport_cases f.parameters with ⟨hshort, -⟩ | ⟨hlong, rep, hrep, -⟩
    · rw [Tags.inventory_of_short hshort, inventoryReports_concat_of_short fs hshort,
        shortReports_concat_of_short fs hc hshort]
    · rw [inventoryReports_concat_of_report fs hc hrep, shortReports_concat_of_not_short fs fun _ => hlong, firstSeen_concat]
      split
      · next hknown => rw [Tags.inventory_of_known hrep ((exists_mem_firstSeen_iff _ _).2 hknown)]
      · next hnew =>
        rw [← exists_mem_firstSeen_iff] at hnew
        rw [Tags.inventory_of_new hrep (by simpa using hnew)]
  · have hpoll : f.command ≠ OP_SINGLE_POLL := by rw [hc]; decide
    rw [hd, collected, collected, inventoryReports_concat_of_ne fs hpoll, lastFailure_concat_of_failure fs hc,
      shortReports_concat_of_not_short fs fun h => absurd h hpoll]
    rfl
  · rw [hd, collected, collected, inventoryReports_concat_of_ne fs hpoll, lastFailure_concat_of_ne fs hfail,
      shortReports_concat_of_not_short fs fun h => absurd h hpoll]

/-- READTAGS's loop over the frames collects them. -/
theorem foldl_dispatch (fs : List Frame) : fs.foldl Tags.dispatch Tags.empty = collected fs := by
  induction fs using List.reverseRecOn with
  | nil => rfl
  | append_singleton fs f ih => rw [List.foldl_concat, ih, dispatch_collected]

end Sys2Proof.Machine

/-! PROOFS. READTAGS (spec/43_session.md R174 to R181): its `write`, and what follows in a ready session. -/

namespace Sys2Proof.Machine

open Config

/-! The multi-poll (R174). -/

/-- The bytes a multi-poll's checksum covers. -/
theorem coveredBytes_multiPoll (n : Byte) :
    coveredBytes TYPE_COMMAND OP_MULTI_POLL [0x22, 0x00, n] = [0x00, 0x27, 0x00, 0x03, 0x22, 0x00] ++ [n] := by
  have hlen : [0x22, 0x00, n].length = 3 := rfl
  rw [coveredBytes, hlen]
  rfl

theorem frameChecksum_multiPoll (n : Byte) : frameChecksum TYPE_COMMAND OP_MULTI_POLL [0x22, 0x00, n] = 0x4C + n := by
  rw [frameChecksum, coveredBytes_multiPoll, csum_append]
  simp

theorem frameBytes_multiPoll (n : Byte) :
    frameBytes TYPE_COMMAND OP_MULTI_POLL [0x22, 0x00, n] =
      [0xAA, 0x00, 0x27, 0x00, 0x03, 0x22, 0x00, n, 0x4C + n, 0xDD] := by
  rw [frameBytes_eq_coveredBytes, coveredBytes_multiPoll, frameChecksum_multiPoll]
  rfl

/-- The encoder at READTAGS's `write`. -/
def multiPollEncoder (n : Byte) : Encoder :=
  { eCmd := OP_MULTI_POLL, eLen := 3, eAcc := 0x4C + n, txbuf := frameBytes TYPE_COMMAND OP_MULTI_POLL [0x22, 0x00, n] }

theorem State.startReadTags_eq (rounds : Nat) (s : State) :
    s.startReadTags rounds = s.startWrite .readTags (multiPollEncoder (BitVec.ofNat 8 (min rounds 255))) := by
  rw [State.startReadTags, Encoder.emitFrame_eq, multiPollParams, pollRounds, frameChecksum_multiPoll]
  rfl

/-- The state in which the RECEIVE of a READTAGS starts: the multi-poll is on the wire (R174). -/
def State.polled (n : Byte) (ws : List WriteAnswer) (s : State) : State :=
  { s with
    enc := { multiPollEncoder n with txbuf := [] }
    chan := { s.chan with writes := ws, wire := s.chan.wire ++ (multiPollEncoder n).txbuf } }

theorem State.Ready.polled {s : State} (h : s.Ready) (n : Byte) (ws : List WriteAnswer) : (s.polled n ws).Ready :=
  h.with_enc_chan rfl _

/-- A whole write takes READTAGS on to its RECEIVE (R174). -/
theorem State.write_of_whole_multiPoll {s : State} {n : Byte} {ws : List WriteAnswer} (hw : s.chan.writes = .count 10 :: ws) :
    (s.startWrite .readTags (multiPollEncoder n)).write = .next ((s.polled n ws).startRead .readTags) := by
  rw [State.write_of_whole (s := s.startWrite .readTags (multiPollEncoder n)) hw, State.written_readTags rfl]
  rfl

/-- READTAGS comes to its RECEIVE when the channel accepts the whole multi-poll (R174). -/
theorem State.Ready.exec_opReadTags_of_whole {s : State} (h : s.Ready) {rounds : Nat} {ws : List WriteAnswer}
    (hw : s.chan.writes = .count 10 :: ws) {n : Byte} (hn : n = BitVec.ofNat 8 (min rounds 255)) :
    exec (.opReadTags rounds) s = .next ((s.polled n ws).startRead .readTags).runReceive := by
  rw [exec_opReadTags h.sessionRefusal, State.startReadTags_eq, State.write_of_whole_multiPoll hw, hn]
  rfl

/-- READTAGS's result from DECODE's (R176). -/
def DecodeResult.collected (r : DecodeResult) : OpOutcome :=
  .tags { pool := firstSeen (inventoryReports r.frames), lastError := lastFailure r.frames
          shortCount := shortReports r.frames, stop := r.stop, rest := r.rest }

/-- A READTAGS at its decode loop ends with what DECODE's frames give (R175 to R180). -/
theorem State.runDecode_readTags {s : State} (hp : s.point = .decode) (hop : s.op = some .readTags) :
    s.runDecode =
      State.conclude (s.dec.run.1.result s.dec.run.2).collected
        { s with dec := s.dec.run.1.consume s.dec.run.2, tags := collected s.dec.run.1.frames, batch := []
                 rest := s.dec.run.1.remaining, point := .dispatch, ser := Decoder.reset } := by
  simp only [State.runDecode, hp]
  rw [State.endDecode_readTags (s := { s with dec := s.dec.run.1, point := .decode }) _ hop]
  simp only [State.runDispatch, foldl_dispatch]
  rfl

/-- Settles O36: the multi-poll is written, the drain is DECODE's operand, and the loop collects DECODE's frames. -/
theorem readTagsCollectsTheBatch : Obligations.ReadTagsCollectsTheBatch := by
  rintro s rounds ws chunks rs h hd hw hr n r hn rfl
  obtain ⟨ty, c, acc, cs, len, hconclude⟩ := (h.polled n ws).conclude_of_run
    (d := ((s.polled n ws).drainedRead .readTags chunks.flatten rs).dec) h.dec_between
  refine ⟨ty, c, acc, cs, len, ?_⟩
  rw [h.exec_opReadTags_of_whole hw hn, State.runReceive_of_zero (s := s.polled n ws) hd hr,
    State.runDecode_readTags rfl rfl, Decoder.run_result rfl rfl, ← frameBytes_multiPoll]
  refine congrArg Host.Outcome.next (hconclude _ _ ?_ ?_ ?_ ?_) <;> rfl

/-! The channel's errors (R181). -/

/-- EncodingError is not among the outcomes of what follows a whole write. -/
theorem State.runDecode_not_encodingError {s : State} {n : Nat} (hs : s.outcome ≠ some (.error (.encodingError n))) :
    s.runDecode.outcome ≠ some (.error (.encodingError n)) := by
  by_cases hp : s.point = .decode
  · by_cases hop : s.op = some .readTags
    · rw [State.runDecode_readTags hp hop]; nofun
    · rw [State.runDecode_receive hp hop]; nofun
  · rwa [State.runDecode_of_ne hp]

theorem State.drained_not_encodingError {s : State} {n : Nat} (hs : s.outcome ≠ some (.error (.encodingError n)))
    (d : Drain) : (s.drained d).outcome ≠ some (.error (.encodingError n)) := by
  cases d with
  | waiting b => exact hs
  | done b => exact hs
  | failed => nofun
  | overflow => nofun

theorem State.runReceive_not_encodingError {s : State} {n : Nat} (hs : s.outcome ≠ some (.error (.encodingError n))) :
    s.runReceive.outcome ≠ some (.error (.encodingError n)) := by
  unfold State.runReceive
  split
  · rw [State.drainAll]
    exact State.runDecode_not_encodingError (State.drained_not_encodingError (by exact hs) _)
  · exact hs

theorem State.write_not_encodingError {s t : State} {n : Nat} (hs : s.outcome ≠ some (.error (.encodingError n)))
    (h : s.write = .next t) : t.outcome ≠ some (.error (.encodingError n)) := by
  rcases s.write_cases with ⟨_, hw⟩ | ⟨_, _, _, _, hw⟩ | ⟨_, _, hw⟩ | ⟨_, _, _, _, hw⟩ | ⟨_, _, _, _, hw⟩
  all_goals rw [hw] at h; cases h
  · exact hs
  · nofun
  · unfold State.written
    split
    · exact hs
    · nofun
  · nofun

theorem exec_opReadTags_not_encodingError {s t : State} {rounds : Nat} (h : exec (.opReadTags rounds) s = .next t)
    (n : Nat) : t.outcome ≠ some (.error (.encodingError n)) := by
  cases hr : s.sessionRefusal with
  | some r => rw [exec_refused (.inr (.inr (.inr ⟨rounds, rfl⟩))) hr] at h; cases h
  | none =>
    rw [exec_opReadTags hr] at h
    obtain ⟨u, hu, rfl⟩ := andThen_eq_next h
    exact State.runReceive_not_encodingError (State.write_not_encodingError (show none ≠ some _ by simp) hu)

/-- Settles O37, by the answers to the `write` and to the last `read`. -/
theorem readTagsReturnsChannelErrors : Obligations.ReadTagsReturnsChannelErrors := by
  refine ⟨?_, fun s t rounds n ht => exec_opReadTags_not_encodingError ht n⟩
  rintro s rounds n ws _ _ h rfl rfl
  have hexec := exec_opReadTags h.sessionRefusal rounds
  rw [State.startReadTags_eq] at hexec
  refine ⟨fun hw hn => ?_, fun hw hn => ?_, fun chunks rs hd hw hr => ?_⟩
  · rw [hexec, h.write_of_short (multiPollEncoder _) _ hw hn]
    exact congrArg Host.Outcome.next (State.runReceive_of_ne (by simp [h.point]))
  · rw [hexec, h.write_of_error (multiPollEncoder _) _ hw hn]
    exact congrArg Host.Outcome.next (State.runReceive_of_ne (by simp [h.point]))
  · rw [h.exec_opReadTags_of_whole hw rfl, (h.polled _ ws).runReceive_of_error hd hr]
    rfl

end Sys2Proof.Machine

/-! PROOFS. What faults (spec/43_session.md R166, log 4): only a `write`, of a SEND or a READTAGS. -/

namespace Sys2Proof.Machine

open Config

/-- The next answer to `write` counts more bytes than this frame has. -/
def Channel.OverCounts (c : Channel) (frame : List Byte) : Prop :=
  ∃ (n : Nat) (ws : List WriteAnswer), frame.length < n ∧ (c.writes = .count n :: ws ∨ c.writes = .error n :: ws)

theorem State.write_fault {s : State} {f : Fault} (h : s.write = .fault f) :
    f = .channelContract ∧ s.chan.OverCounts s.enc.txbuf := by
  rcases s.write_cases with ⟨_, hw⟩ | ⟨_, _, _, _, hw⟩ | ⟨_, _, hw⟩ | ⟨_, _, _, _, hw⟩ | ⟨n, ws, hc, hn, hw⟩
  all_goals rw [hw] at h; cases h
  exact ⟨rfl, n, ws, hn, hc⟩

theorem State.sendFrame_fault {s : State} {cmd : Byte} {params : List Byte} {f : Fault}
    (h : s.sendFrame cmd params = .fault f) :
    f = .channelContract ∧ params.length ≤ MAX_PARAM_LEN ∧ s.chan.OverCounts (frameBytes TYPE_COMMAND cmd params) := by
  rcases State.sendFrame_cases cmd params s with ⟨_, hs⟩ | ⟨hp, hs⟩
  · rw [hs] at h; cases h
  · rw [hs, Encoder.emitFrame_eq] at h
    obtain ⟨hf, hover⟩ := State.write_fault h
    exact ⟨hf, hp, hover⟩

theorem andThen_eq_fault {o : Host.Outcome State Fault Refusal} {g : State → State} {f : Fault}
    (h : andThen o g = .fault f) : o = .fault f := by
  cases o with
  | next u => cases h
  | fault x => cases h; rfl
  | refused x => cases h

/-- Of the requests, a SEND or a READTAGS that has started can fault, at its `write`. -/
theorem exec_request_fault {s : State} {q : Request} {i : Instr} {f : Fault} (hi : decodeRequest q = some i)
    (h : exec i s = .fault f) :
    s.sessionRefusal = none ∧
      ((q.opsel.toNat = 4 ∧ (s.start .send .write).sendFrame q.cmd q.bytes = .fault f) ∨
       (q.opsel.toNat = 8 ∧
        (s.start .readTags .write).sendFrame OP_MULTI_POLL (multiPollParams q.rounds) = .fault f)) := by
  have not_pure : ¬ PureOp i := fun hpure => by
    obtain ⟨r, -, he⟩ := exec_pure hpure
    rw [he] at h; cases h
  have started : SessionInstr i → s.sessionRefusal = none := fun hsession => by
    cases hr : s.sessionRefusal with
    | none => rfl
    | some r => rw [exec_refused hsession hr] at h; cases h
  rcases decodeRequest_cases hi with ⟨_, rfl⟩ | ⟨_, rfl⟩ | ⟨_, rfl⟩ | ⟨_, rfl⟩ | ⟨hq, rfl⟩ | ⟨_, rfl⟩ | ⟨_, rfl⟩ |
    ⟨_, rfl⟩ | ⟨hq, rfl⟩
  · simp only [exec, execOpen] at h
    split at h <;> cases h
  · rw [exec_opClose (started (.inl rfl))] at h; cases h
  · exact absurd (.inl ⟨_, _, rfl⟩) not_pure
  · exact absurd (.inr (.inl ⟨_, rfl⟩)) not_pure
  · have hr := started (.inr (.inl ⟨_, _, rfl⟩))
    exact ⟨hr, .inl ⟨hq, exec_opSend_eq_sendFrame hr _ _ ▸ h⟩⟩
  · rw [exec_opReceive (started (.inr (.inr (.inl rfl))))] at h; cases h
  · exact absurd (.inr (.inr (.inl ⟨_, rfl⟩))) not_pure
  · exact absurd (.inr (.inr (.inr ⟨_, rfl⟩))) not_pure
  · have hr := started (.inr (.inr (.inr ⟨_, rfl⟩)))
    simp only [exec, execReadTags, hr] at h
    exact ⟨hr, .inr ⟨hq, andThen_eq_fault h⟩⟩

theorem exec_toInstr_no_fault (w : WireFrame) (s : State) (f : Fault) : exec w.toInstr s ≠ .fault f := by
  by_cases hc : w.type = .command
  · rw [exec_toInstr_command hc]; nofun
  · rw [exec_toInstr_accepted hc]; nofun

/-- Settles O45, by the cases of a step: a request, a `write`, and the moves that go on. -/
theorem faultsOnlyOutsideTheChannelContract : Obligations.FaultsOnlyOutsideTheChannelContract := by
  intro s f h
  rcases step_cases s with ⟨q, qs, i, hport, hi, hs⟩ | ⟨_, _, _, _, hs⟩ | ⟨_, _, hs⟩ | ⟨hport, hpoint, _, hs⟩ |
    ⟨_, _, _, _, _, hs⟩ | ⟨w, _, _, _, hs⟩ | ⟨_, _, _, _, hs⟩ | ⟨_, _, _, hs⟩ | ⟨_, _, _, _, _, _, hi, hs⟩ |
    ⟨_, _, _, _, _, _, hs⟩
  all_goals rw [hs] at h
  · obtain ⟨hr, ⟨hq, hsend⟩ | ⟨hq, hsend⟩⟩ := exec_request_fault hi h
    · obtain ⟨hf, hp, n, ws, hn, hc⟩ := State.sendFrame_fault hsend
      exact ⟨hf, _, n, ws, hn, hc, .inr ⟨q, qs, hport, hr, .inl ⟨hq, hp, rfl⟩⟩⟩
    · obtain ⟨hf, -, n, ws, hn, hc⟩ := State.sendFrame_fault hsend
      exact ⟨hf, _, n, ws, hn, hc, .inr ⟨q, qs, hport, hr, .inr ⟨hq, rfl⟩⟩⟩
  · cases h
  · cases h
  · obtain ⟨hf, n, ws, hn, hc⟩ := State.write_fault h
    exact ⟨hf, _, n, ws, hn, hc, .inl ⟨hport, hpoint, rfl⟩⟩
  · cases h
  · exact absurd h (exec_toInstr_no_fault w s f)
  · cases h
  · cases h
  · rw [exec_of_decodeCommand hi] at h; cases h
  · cases h

end Sys2Proof.Machine

/-! PROOFS. What a request can be refused for (spec/43_session.md R186; spec/60_exceptions.md R205). -/

namespace Sys2Proof.Machine

/-- A request asks for OPEN, for a session operation or for a pure one (spec/30_encoding.md R90; R186). -/
theorem decodeRequest_kind {q : Request} {i : Instr} (h : decodeRequest q = some i) :
    (q.opsel.toNat = 0 ∧ i = .opOpen q.channel q.timeout) ∨ (q.opsel.toNat ∈ [1, 4, 5, 8] ∧ SessionInstr i) ∨ PureOp i := by
  rcases decodeRequest_cases h with hopen | ⟨hq, rfl⟩ | ⟨-, rfl⟩ | ⟨-, rfl⟩ | ⟨hq, rfl⟩ | ⟨hq, rfl⟩ | ⟨-, rfl⟩ |
    ⟨-, rfl⟩ | ⟨hq, rfl⟩
  · exact .inl hopen
  · exact .inr (.inl ⟨by simp [hq], .inl rfl⟩)
  · exact .inr (.inr (.inl ⟨_, _, rfl⟩))
  · exact .inr (.inr (.inr (.inl ⟨_, rfl⟩)))
  · exact .inr (.inl ⟨by simp [hq], .inr (.inl ⟨_, _, rfl⟩)⟩)
  · exact .inr (.inl ⟨by simp [hq], .inr (.inr (.inl rfl))⟩)
  · exact .inr (.inr (.inr (.inr (.inl ⟨_, rfl⟩))))
  · exact .inr (.inr (.inr (.inr (.inr ⟨_, rfl⟩))))
  · exact .inr (.inl ⟨by simp [hq], .inr (.inr (.inr ⟨_, rfl⟩))⟩)

section
variable {s : State} {r : Refusal}

theorem sessionRefusal_eq_some (h : s.sessionRefusal = some r) :
    (r = .notOpen ∧ s.session.sOpen = false) ∨
      (r = .busy ∧ s.session.sOpen = true ∧ s.session.sBusy = true) := by
  unfold State.sessionRefusal at h
  split at h
  · next hclosed => cases h; exact .inl ⟨rfl, hclosed⟩
  · next hopen =>
    split at h
    · next hbusy => cases h; exact .inr ⟨rfl, by simpa using hopen, hbusy⟩
    · cases h

/-- A session operation is refused for its precondition alone. -/
theorem SessionInstr.sessionRefusal {i : Instr} (hi : SessionInstr i) (h : exec i s = .refused r) :
    s.sessionRefusal = some r := by
  cases hr : s.sessionRefusal with
  | none => exact absurd h (exec_not_refused hi hr r)
  | some x => rw [exec_refused hi hr] at h; cases h; rfl

theorem exec_opOpen_refused {channel timeout : Nat} (h : exec (.opOpen channel timeout) s = .refused r) :
    r = .alreadyOpen ∧ s.session.sOpen = true := by
  cases hopen : s.session.sOpen with
  | false => rw [exec_opOpen_of_closed hopen] at h; cases h
  | true => rw [exec_opOpen_of_open hopen] at h; cases h; exact ⟨rfl, rfl⟩

theorem exec_toInstr_not_refused (w : WireFrame) : exec w.toInstr s ≠ .refused r := by
  by_cases hc : w.type = .command
  · rw [exec_toInstr_command hc]; nofun
  · rw [exec_toInstr_accepted hc]; nofun

end

/-- Settles O46, by the cases of a step: a request is taken or selects nothing; the moves of an operation in flight go on
or fault. -/
theorem refusalsHaveTheirReasons : Obligations.RefusalsHaveTheirReasons := by
  intro s r h
  rcases step_cases s with ⟨q, qs, i, hport, hi, hs⟩ | ⟨q, qs, hport, hi, hs⟩ | ⟨_, _, hs⟩ | ⟨_, _, _, hs⟩ |
    ⟨_, _, _, _, _, hs⟩ | ⟨w, _, _, _, hs⟩ | ⟨_, _, _, _, hs⟩ | ⟨_, _, _, hs⟩ | ⟨_, _, _, _, _, _, hi, hs⟩ |
    ⟨_, _, _, _, _, _, hs⟩
  all_goals rw [hs] at h
  · refine ⟨q, qs, hport, .inr ?_⟩
    rcases decodeRequest_kind hi with ⟨hq, rfl⟩ | ⟨hq, hsession⟩ | hpure
    · obtain ⟨hr, hopen⟩ := exec_opOpen_refused h
      exact .inl ⟨hr, hq, hopen⟩
    · have hrefused := hsession.sessionRefusal h
      exact .inr ⟨hq, sessionRefusal_eq_some hrefused⟩
    · obtain ⟨_, -, hexec⟩ := exec_pure hpure
      rw [hexec] at h; cases h
  · cases h
    exact ⟨q, qs, hport, .inl ⟨rfl, decodeRequest_eq_none.1 hi⟩⟩
  · cases h
  · exact absurd h (State.write_not_refused s r)
  · cases h
  · exact absurd h (exec_toInstr_not_refused w)
  · cases h
  · cases h
  · rw [exec_of_decodeCommand hi] at h; cases h
  · cases h

end Sys2Proof.Machine

/-! PROOFS. A drain that passes RXBUF_CAP (spec/60_exceptions.md R205; spec/90_conflicts.md C11), and an operation whose
channel answer has not come (spec/60_exceptions.md R211), in a ready session. -/

namespace Sys2Proof.Machine

namespace State.Ready

variable {s : State} (h : s.Ready) {chunks : List (List Byte)}
include h

/-- An operation that ends in its drain leaves the answers read gone and the outcome, and nothing else (R170, R171). -/
theorem conclude_startRead (o : SessionOp) (rs : List ReadAnswer) (r : OpOutcome) :
    State.conclude r { s.startRead o with chan := { s.chan with reads := rs } } =
      { s with chan := { s.chan with reads := rs }, outcome := some r } := by
  have hconclude := h.conclude_of_held { s.startRead o with chan := { s.chan with reads := rs } } rfl rfl r
  have henc : { (s.startRead o).enc with txbuf := [] } = s.enc := h.enc_eq
  have hdec : (s.startRead o).dec.between = s.dec := h.dec_between
  simpa only [henc, hdec] using hconclude

/-- A chunk that passes the capacity ends the operation without a result (C11). -/
theorem runReceive_of_overflow {b : Byte} {bs : List Byte} {rs : List ReadAnswer} (hd : s.drains chunks)
    (hcap : exceeds s.rxbufCap (chunks.flatten.length + (bs.length + 1)) = true)
    (hr : s.chan.reads = chunks.map .chunk ++ .chunk (b :: bs) :: rs) (o : SessionOp) :
    (s.startRead o).runReceive = { s with chan := { s.chan with reads := rs }, outcome := some .rxOverflow } := by
  have hdrain : drain s.rxbufCap [] s.chan.reads = (.overflow, rs) := by
    rw [hr, drain_of_drains hd, drain, List.length_cons, if_pos hcap]
  rw [State.runReceive_startRead hdrain, State.runDecode_of_ne (by simp), State.drained_overflow, h.conclude_startRead]

/-- A drain that no answer ends waits at its next `read` with the chunks in RXBUF, which the byte-serial form has heard
(R172, log 12). -/
theorem runReceive_of_waiting (hd : s.drains chunks) (hr : s.chan.reads = chunks.map .chunk) (o : SessionOp) :
    (s.startRead o).runReceive =
      { s.start o .read with
        dec := { s.dec with rxbuf := chunks.flatten }, chan := { s.chan with reads := [] }
        ser := chunks.flatten.foldl Decoder.serialByte Decoder.reset } := by
  obtain ⟨-, -, hcursor, hframes, -⟩ := h.clean
  have hdrain : drain s.rxbufCap [] s.chan.reads = (.waiting chunks.flatten, []) := by
    rw [hr, ← List.append_nil (chunks.map ReadAnswer.chunk), drain_of_drains hd, drain]
  have hdec : { s.dec with rxbuf := chunks.flatten, cursor := 0, frames := [] } =
      { s.dec with rxbuf := chunks.flatten } := by
    simp only [hcursor, hframes]
  rw [State.runReceive_startRead hdrain, State.drained_waiting, State.runDecode_of_ne (by simp [State.startRead]), ← hdec]
  rfl

end State.Ready

/-- An operation at a `write` without its answer stays there (R211). -/
theorem State.startWrite_write_of_nil {s : State} (hw : s.chan.writes = []) (o : SessionOp) (e : Encoder) :
    (s.startWrite o e).write = .next (s.startWrite o e) := by
  simp only [State.write, State.startWrite, State.start_chan, hw]

/-- Settles O32: the chunk that does not fit ends the drain, and READTAGS's drain starts with its multi-poll written. -/
theorem receiveOverflowLeavesTheBlockIdle : Obligations.ReceiveOverflowLeavesTheBlockIdle := by
  intro s chunks b bs rs h hd hcap hr
  refine ⟨?_, fun rounds ws n hw hn => ?_⟩
  · rw [exec_opReceive h.sessionRefusal, ← h.runReceive_of_overflow hd hcap hr .receive]
    rfl
  · rw [h.exec_opReadTags_of_whole hw hn, (h.polled n ws).runReceive_of_overflow hd hcap hr, ← frameBytes_multiPoll]
    rfl

/-- Settles O34, by the call at which the operation waits. -/
theorem operationsWaitForTheChannel : Obligations.OperationsWaitForTheChannel := by
  refine fun s h => ⟨fun cmd params hw hp => ?_, fun chunks hd hr => ?_, fun rounds hw => ?_,
    fun rounds ws chunks n hd hw hr hn => ?_⟩
  · rw [h.exec_opSend hp, State.startWrite_write_of_nil hw]
    rfl
  · have hexec : exec .opReceive s = .next (s.startRead .receive).runReceive := exec_opReceive h.sessionRefusal
    rw [hexec, h.runReceive_of_waiting hd hr]
    rfl
  · rw [exec_opReadTags h.sessionRefusal, State.startReadTags_eq, State.startWrite_write_of_nil hw]
    rfl
  · rw [h.exec_opReadTags_of_whole hw hn, (h.polled n ws).runReceive_of_waiting hd hr, ← frameBytes_multiPoll]
    rfl

end Sys2Proof.Machine

/-! PROOFS. Block reset (spec/70_reset_and_hazards.md R220; spec/10_state.md R38). -/

namespace Sys2Proof.Machine

/-- Block reset differs from reset in what the invariant does not speak of, and in a capacity that an empty RXBUF is within
(log 20). -/
theorem State.blockReset_inv (s : State) : s.blockReset.Inv :=
  { resetMeetsTheInvariant with capacity := exceeds_zero s.rxbufCap }

/-- Settles O4: the block's own registers are at their reset values, and the channel is not touched. -/
theorem blockResetClosesTheSession : Obligations.BlockResetClosesTheSession := fun s =>
  ⟨s.blockReset_inv, rfl, rfl, rfl, rfl, s.blockReset_inv.clean rfl, rfl, rfl, rfl, rfl, rfl, rfl, rfl⟩

end Sys2Proof.Machine

/-! PROOFS. An operation taken one pass of its loops a step comes to what it answers at once (spec/43_session.md R170, R174;
spec/70_reset_and_hazards.md R234; log 13): its loops from the last to the first, each from the control point at its head. -/

namespace Sys2Proof.Machine

open Config

/-- Some number of steps ends in this outcome. -/
def Reaches (s : State) (o : Host.Outcome State Fault Refusal) : Prop := ∃ n : Nat, core.run n s = o

theorem Reaches.refl (s : State) : Reaches s (.next s) := ⟨0, rfl⟩

theorem Reaches.of_step {s t : State} {o : Host.Outcome State Fault Refusal} (hstep : step s = .next t) (h : Reaches t o) :
    Reaches s o :=
  let ⟨n, hn⟩ := h
  ⟨n + 1, (run_succ hstep n).trans hn⟩

theorem Reaches.of_fault {s : State} {f : Fault} (hstep : step s = .fault f) : Reaches s (.fault f) := by
  have hcore : core.step s = .fault f := hstep
  refine ⟨1, ?_⟩
  simp only [Host.Core.run, hcore]
  rfl

/-! READTAGS's loop over the frames (R175, R176). -/

theorem step_dispatch_nil {s : State} (hport : s.port = []) (hpoint : s.point = .dispatch) (hbatch : s.batch = []) :
    step s = .next s.endTags := by
  simp only [step, fetch, hport, fetchInFlight, hpoint, fetchCommand, hbatch]

/-- A frame's pass is its dispatch, whether its command is listed or not (R175). -/
theorem step_dispatch_cons {s : State} (hport : s.port = []) (hpoint : s.point = .dispatch) {f : Frame} {fs : List Frame}
    (hbatch : s.batch = f :: fs) : step s = .next { s with batch := fs, tags := s.tags.dispatch f } := by
  cases hc : decodeCommand f.command f.parameters with
  | some i =>
    simp only [step, fetch, hport, fetchInFlight, hpoint, fetchCommand, hbatch, hc, exec_of_decodeCommand hc]
  | none =>
    obtain ⟨-, hpoll, -, -, -, hfailure⟩ := decodeCommand_eq_none hc
    have htags : s.tags.dispatch f = s.tags := by simp only [Tags.dispatch, if_neg hpoll, if_neg hfailure]
    simp only [step, fetch, hport, fetchInFlight, hpoint, fetchCommand, hbatch, hc, htags]

theorem State.runDispatch_of_dispatch {s : State} (hpoint : s.point = .dispatch) :
    s.runDispatch = State.endTags { s with tags := s.batch.foldl Tags.dispatch s.tags, batch := [] } := by
  simp only [State.runDispatch, hpoint]

theorem reaches_runDispatch {s : State} (hport : s.port = []) : Reaches s (.next s.runDispatch) := by
  by_cases hpoint : s.point = .dispatch
  · obtain ⟨fs, hbatch⟩ : ∃ fs, s.batch = fs := ⟨_, rfl⟩
    induction fs generalizing s with
    | nil =>
      have hend : s.runDispatch = s.endTags := by
        rw [State.runDispatch_of_dispatch hpoint, hbatch]
        rfl
      exact hend ▸ .of_step (step_dispatch_nil hport hpoint hbatch) (.refl _)
    | cons f fs ih =>
      have hpass : s.runDispatch = State.runDispatch { s with batch := fs, tags := s.tags.dispatch f } := by
        rw [State.runDispatch_of_dispatch hpoint, State.runDispatch_of_dispatch (by exact hpoint), hbatch]
        rfl
      exact hpass ▸ .of_step (step_dispatch_cons hport hpoint hbatch) (ih (by exact hport) (by exact hpoint) rfl)
  · rw [State.runDispatch_of_ne hpoint]
    exact .refl s

/-! The decode loop (R128). -/

/-- With no byte left DECODE1 stops and writes no register (spec/41_decode.md R120). -/
theorem Decoder.decode1_of_nil {d : Decoder} (h : d.remaining = []) : d.decode1 = (d, some .endOfBuffer) := by
  have hlatch : d.latch = d := by simp only [Decoder.latch, h]
  rw [Decoder.decode1_of_stopsAt .endOfBuffer h, hlatch]

/-- A pass that DECODE1 stops is the loop's end; a whole command frame at CURSOR writes D_TYPE, as its DECODE1 does
(spec/41_decode.md R122, R126). -/
theorem step_of_decode1_stops {s : State} (hport : s.port = []) (hpoint : s.point = .decode) {d : Decoder} {r : StopReason}
    (h : s.dec.decode1 = (d, some r)) : step s = .next ({ s with dec := d }.endDecode r) := by
  rcases s.dec.decode1_cases with ⟨r', h1, hr⟩ | ⟨w, h1, -⟩
  · cases h1.symm.trans h
    rcases hr with hr | ⟨rfl, w, hw, ht⟩
    · simp only [step, fetch, hport, fetchInFlight, hpoint, fetchFrame, hr]
    · obtain ⟨-, more, hrem⟩ := decodeFrame_ok hw
      have hlatch : s.dec.latch = { s.dec with dType := TYPE_COMMAND } :=
        Decoder.latch_of_badType (hrem.trans (by rw [WireFrame.bytes, ht]; rfl)) (by decide) (by decide)
      simp only [step, fetch, hport, fetchInFlight, hpoint, fetchFrame, hw, exec_toInstr_command ht, hlatch]
  · cases h1.symm.trans h

/-- A pass that DECODE1 goes through is that DECODE1, and takes bytes from the rest (spec/41_decode.md R125). -/
theorem step_of_decode1_accepts {s : State} (hport : s.port = []) (hpoint : s.point = .decode) {d : Decoder}
    (h : s.dec.decode1 = (d, none)) :
    step s = .next { s with dec := d } ∧ d.remaining.length ≤ s.dec.remaining.length - 1 := by
  rcases s.dec.decode1_cases with ⟨r, h1, -⟩ | ⟨w, h1, hw, ht⟩
  · cases h1.symm.trans h
  · cases h1.symm.trans h
    have hc : w.type ≠ .command := by rcases ht with ht | ht <;> simp [ht]
    constructor
    · simp only [step, fetch, hport, fetchInFlight, hpoint, fetchFrame, hw, exec_toInstr_accepted hc]
    · rw [Decoder.accept_remaining, List.length_drop]
      omega

@[simp] theorem State.endDecode_port (r : StopReason) (s : State) : (s.endDecode r).port = s.port := by
  unfold State.endDecode; split <;> rfl

theorem reaches_of_decode1_stops {s : State} (hport : s.port = []) (hpoint : s.point = .decode) {d : Decoder}
    {r : StopReason} (h : s.dec.decode1 = (d, some r)) : Reaches s (.next ({ s with dec := d }.endDecode r).runDispatch) :=
  .of_step (step_of_decode1_stops hport hpoint h) (reaches_runDispatch ((State.endDecode_port ..).trans hport))

/-- The decode loop with passes for all the bytes left, and what follows it. -/
theorem reaches_endDecode_loop (n : Nat) {s : State} (hport : s.port = []) (hpoint : s.point = .decode)
    (hn : s.dec.remaining.length ≤ n) :
    Reaches s (.next ({ s with dec := (s.dec.loop n).1 }.endDecode (s.dec.loop n).2).runDispatch) := by
  induction n generalizing s with
  | zero =>
    exact reaches_of_decode1_stops hport hpoint (Decoder.decode1_of_nil (List.length_eq_zero_iff.1 (Nat.le_zero.1 hn)))
  | succ n ih =>
    match h : s.dec.decode1 with
    | (d, some r) =>
      have hloop : s.dec.loop (n + 1) = (d, r) := by simp only [Decoder.loop, h]
      rw [hloop]
      exact reaches_of_decode1_stops hport hpoint h
    | (d, none) =>
      have hloop : s.dec.loop (n + 1) = d.loop n := by simp only [Decoder.loop, h]
      obtain ⟨hstep, hd⟩ := step_of_decode1_accepts hport hpoint h
      rw [hloop]
      exact .of_step hstep (ih (s := { s with dec := d }) hport hpoint (by show d.remaining.length ≤ n; omega))

theorem reaches_runDecode {s : State} (hport : s.port = []) : Reaches s (.next s.runDecode) := by
  by_cases hpoint : s.point = .decode
  · have hrun : s.runDecode = ({ s with dec := s.dec.run.1 }.endDecode s.dec.run.2).runDispatch := by
      simp only [State.runDecode, hpoint]
    exact hrun ▸ reaches_endDecode_loop _ hport hpoint le_rfl
  · rw [State.runDecode_of_ne hpoint]
    exact .refl s

/-! The drain (R170). -/

@[simp] theorem State.drained_port (d : Drain) (s : State) : (s.drained d).port = s.port := by
  cases d <;> rfl

theorem State.runReceive_of_read {s : State} (hpoint : s.point = .read) : s.runReceive = s.drainAll.runDecode := by
  simp only [State.runReceive, hpoint]

theorem State.hear_rxbuf (s : State) : s.hear s.dec.rxbuf = s := by
  simp [State.hear, State.rxlen]

/-- Hearing RXBUF grow in two pieces is hearing it grow at once (spec/41_decode.md R135). -/
theorem State.hear_hear {s : State} {b c : List Byte} (hb : s.dec.rxbuf <+: b) (hc : b <+: c) :
    (s.hear b).hear c = s.hear c := by
  obtain ⟨more, rfl⟩ := hb
  obtain ⟨rest, rfl⟩ := hc
  simp [State.hear, State.rxlen]

/-- What a drain of more bytes leaves does not show where they were cut. -/
theorem State.hear_drained {s : State} {b : List Byte} (hb : s.dec.rxbuf <+: b) {d : Drain}
    (hd : ∀ c, d = .waiting c ∨ d = .done c → b <+: c) : (s.hear b).drained d = s.drained d := by
  cases d with
  | waiting c => exact State.hear_hear hb (hd c (.inl rfl))
  | done c =>
    rw [State.drained_done, State.drained_done, State.hear_hear hb (hd c (.inr rfl))]
    rfl
  | failed => rfl
  | overflow => rfl

/-- With no answer to come the drain waits where it stands. -/
theorem State.drainAll_of_nil {s : State} (hreads : s.chan.reads = []) : s.drainAll = s := by
  have hchan : { s.chan with reads := [] } = s.chan := by rw [← hreads]
  rw [State.drainAll, hreads, drain, State.drained_waiting, hchan]
  exact s.hear_rxbuf

/-- One answer either ends the drain or leaves what the rest of the answers give. -/
theorem State.drainAll_of_cons {s : State} {a : ReadAnswer} {rs : List ReadAnswer} (hreads : s.chan.reads = a :: rs) :
    s.readOne a rs = s.drainAll ∨
      ((s.readOne a rs).point = s.point ∧ (s.readOne a rs).chan.reads = rs ∧ (s.readOne a rs).drainAll = s.drainAll) := by
  rw [State.drainAll, State.readOne, hreads]
  match a with
  | .error => exact .inl rfl
  | .chunk [] => exact .inl rfl
  | .chunk (b :: bs) =>
    by_cases hcap : exceeds s.rxbufCap (s.dec.rxbuf.length + (b :: bs).length) = true
    · exact .inl (by simp only [drain, if_pos hcap])
    · have hone : drain s.rxbufCap s.dec.rxbuf [.chunk (b :: bs)] = (.waiting (s.dec.rxbuf ++ b :: bs), []) := by
        simp only [drain, if_neg hcap]
      have hall : drain s.rxbufCap s.dec.rxbuf (.chunk (b :: bs) :: rs) = drain s.rxbufCap (s.dec.rxbuf ++ b :: bs) rs := by
        rw [drain, if_neg hcap]
      rw [hone, hall]
      exact .inr ⟨rfl, rfl, State.hear_drained
        (s := { s with chan := { s.chan with reads := (drain s.rxbufCap (s.dec.rxbuf ++ b :: bs) rs).2 } })
        (List.prefix_append _ _) fun _ hc => drain_prefix hc⟩

theorem reaches_runReceive {s : State} (hport : s.port = []) : Reaches s (.next s.runReceive) := by
  by_cases hpoint : s.point = .read
  · obtain ⟨as, hreads⟩ : ∃ as, s.chan.reads = as := ⟨_, rfl⟩
    rw [State.runReceive_of_read hpoint]
    induction as generalizing s with
    | nil =>
      rw [State.drainAll_of_nil hreads]
      exact reaches_runDecode hport
    | cons a rs ih =>
      have hport' : (s.readOne a rs).port = [] := (State.drained_port ..).trans hport
      refine .of_step (step_read hport hpoint hreads) ?_
      rcases State.drainAll_of_cons hreads with hend | ⟨hpoint', hreads', hrest⟩
      · exact hend ▸ reaches_runDecode hport'
      · exact hrest ▸ ih hport' (hpoint'.trans hpoint) hreads'
  · rw [State.runReceive_of_ne hpoint]
    exact .refl s

/-! READTAGS's `write` (R174). -/

theorem step_write {s : State} (hport : s.port = []) (hpoint : s.point = .write) (hwrites : s.chan.writes ≠ []) :
    step s = s.write := by
  obtain ⟨a, ws, hw⟩ := List.exists_cons_of_ne_nil hwrites
  simp only [step, fetch, hport, fetchInFlight, hpoint, hw]

theorem State.written_port (s : State) : s.written.port = s.port := by
  unfold State.written; split <;> rfl

theorem State.write_port {s t : State} (h : s.write = .next t) : t.port = s.port := by
  rcases s.write_cases with ⟨_, hw⟩ | ⟨_, _, _, _, hw⟩ | ⟨_, _, hw⟩ | ⟨_, _, _, _, hw⟩ | ⟨_, _, _, _, hw⟩
  all_goals cases hw.symm.trans h
  · rfl
  · rfl
  · exact State.written_port _
  · rfl

/-- A `write` with the RECEIVE that follows it: it waits for its answer, or a step makes it. -/
theorem reaches_write_runReceive {s : State} (hport : s.port = []) (hpoint : s.point = .write) :
    Reaches s (andThen s.write State.runReceive) := by
  by_cases hwrites : s.chan.writes = []
  · have hwait : s.write = .next s := by simp only [State.write, hwrites]
    rw [hwait, andThen, State.runReceive_of_ne (by simp [hpoint])]
    exact .refl s
  · have hstep := step_write hport hpoint hwrites
    cases hw : s.write with
    | next t => exact .of_step (hstep.trans hw) (reaches_runReceive ((State.write_port hw).trans hport))
    | fault f => exact .of_fault (hstep.trans hw)
    | refused r => exact absurd hw (s.write_not_refused r)

/-- Settles O43: from its first `read`, and from its `write`, each pass leaves the rest of the operation to the passes after
it. -/
theorem smallStepsReachTheOperationsResult : Obligations.SmallStepsReachTheOperationsResult := by
  refine ⟨fun s hport hr => ?_, fun s rounds hport hr => ?_⟩
  · rw [exec_opReceive hr]
    exact reaches_runReceive hport
  · rw [exec_opReadTags hr]
    exact reaches_write_runReceive hport rfl

end Sys2Proof.Machine
